-- ==== Sys2Proof/Word.lean ====
section
/-! DEFINITION. Word types of the Laniquin K8 (R3, R5: 8-bit bytes, 32-bit words, 64-bit dwords, 512-bit vectors). -/
namespace Sys2Proof

/-- A byte (R5). -/
abbrev Byte := BitVec 8
/-- A 32-bit word, the unit of instruction encoding (R38). -/
abbrev Word := BitVec 32
/-- A 64-bit dword, the width of a g or m register (R70). -/
abbrev Dword := BitVec 64
/-- A 512-bit vector, the width of a v register (R70). -/
abbrev Vec := BitVec 512
/-- A register number of a 4-bit field (R46). -/
abbrev R4 := BitVec 4

end Sys2Proof
end

