-- ==== Sys2Proof/Syntax.lean ====
section
/-! DEFINITION. The instruction set and the part's events: one constructor of `Instr` per row of spec/opcode_table.json.
Register fields are numbers (R46); codes with refused values are inductive types, so a refused code cannot be written. -/
namespace Sys2Proof

/-- Where a slot lives: a mesh core by core id (R13), a control core by socket and number (R286), or a die's carousel (R218). -/
inductive Place where
  | mesh (core : Nat)
  | ctl (socket n : Nat)
  | carousel (die : Nat)
  deriving DecidableEq, Repr

/-- A slot: its place and its number 0-7 (R13, R65). -/
structure SlotRef where
  place : Place
  k : Nat
  deriving DecidableEq, Repr

/-- A 16-byte message (chapter 09). -/
structure Message where
  header : Dword
  payload : Dword
  deriving DecidableEq, Repr

/-- Rounding field of a prefix word (R50): 000 use RND, 001 RNE, 010 RZ, 011 RU, 100 RD. -/
inductive Rm where
  | dflt | rne | rz | ru | rd
  deriving DecidableEq, Repr

/-- Element type of the type3 field (R48). -/
inductive VType where
  | i8 | i16 | i32 | i64 | bf16 | f16 | f32
  deriving DecidableEq, Repr

/-- FMT4 format codes 0-15 (R47). -/
inductive Fmt where
  | i8 | i16 | i32 | i64 | n8 | n16 | n32 | n64 | f16 | bf16 | f32 | e4m3 | e5m2 | e8m0 | px8 | f48
  deriving DecidableEq, Repr

/-- Scalar float format of the FOP group (R55). -/
inductive FType where
  | f32 | bf16 | f16
  deriving DecidableEq, Repr

/-- Conditions (R49). -/
inductive Cond where
  | eq | ne | lt | le | gt | ge
  deriving DecidableEq, Repr

/-- Directions (R46). -/
inductive Dir where
  | east | west | north | south
  deriving DecidableEq, Repr

/-- Size codes 0-7 of the long LD (R57): i8 to n64. -/
inductive LdType where
  | i8 | i16 | i32 | i64 | n8 | n16 | n32 | n64
  deriving DecidableEq, Repr

/-- TLBI scope (R136). -/
inductive TlbScope where
  | page | owner | all
  deriving DecidableEq, Repr

/-- VRED operation (R56). -/
inductive RedOp where
  | sum | min | max
  deriving DecidableEq, Repr

/-- Optional signal of a copy: semaphore and chunk code (R45). -/
structure Signal where
  sm : R4
  chunk : R4
  deriving DecidableEq, Repr

/-- Optional completion message of a copy: mailbox and tag (R45). -/
structure CopyMsg where
  mb : R4
  tag : BitVec 15
  deriving DecidableEq, Repr

/-- Why a word is no instruction (R41 step 2, R50, R39, R58). -/
inductive BadWord where
  | unassigned | reserved | refused | malformedPrefix | secondPrefix | noWord1 | misaligned
  deriving DecidableEq, Repr

/-- A fabric packet (R274): the fields of its header and its payload. LEN is the payload's length, or in a load or GETR
request the length asked for (R347, R378). `mask` names the bytes of a store that are written (R378, log 68). -/
structure Packet where
  dst : Nat
  src : Nat
  sock : Nat
  cls : Nat
  owner : Nat
  op : Nat
  tag : Nat
  addr : Nat
  asub : Nat
  len : Nat
  seq : Nat
  payload : List Byte
  mask : Dword := -1
  deriving DecidableEq, Repr

/-- A tagged message at the I/O die (R250, R251): tag, owner, source device, sender slot id, payload. -/
structure Tagged where
  tag : Nat
  owner : Nat
  device : Nat
  sender : Nat
  payload : List Byte
  /-- ADDR of the packet of a message from another device (R274). -/
  addr : Nat := 0
  deriving DecidableEq, Repr

/-- What a semaphore receives (R204): an addition or a set. -/
inductive SemOp where
  | add (n : Nat)
  | set (n : Nat)
  deriving DecidableEq, Repr

/-- The way an SPDM request comes in (R281): the management port, or a fabric port as OP 11 from a device. -/
inductive Way where
  | management
  | fabric (port device : Nat)
  deriving DecidableEq, Repr

/-- An SPDM request (R281): the way it comes in and its bytes. -/
structure SpdmMessage where
  way : Way
  bytes : List Byte
  deriving DecidableEq, Repr

/-- An object as a source describes it (R37, R298, R299): state bytes, log entries, its carousel image, and its methods, each an
offset in the image and whether it is read-only. -/
structure ObjectPlan where
  state : Nat
  entries : Nat
  code : List Byte
  methods : List (Nat × Bool)
  deriving DecidableEq, Repr

/-- How Penvis arms a launch (R37, R254): the turnstile and the tag of its source, and the physical address of its descriptor. -/
structure ArmPlan where
  index : Dword
  tag : Word
  desc : Dword
  deriving DecidableEq, Repr

/-- What the source of a launch declares beyond its descriptor (R298, log 76): the physical address of its core-store image, by which
its descriptor names it, its owner and rectangle, the image it belongs to with the rectangles of that image's launches, the image's
objects and its own, the physical address of its data section, and how Penvis arms it, unless another
does. -/
structure LaunchPlan where
  store : Nat
  owner : Nat
  rect : Word
  image : Nat
  rects : List Word
  shared : List ObjectPlan
  own : List ObjectPlan
  data : Nat
  arm : Option ArmPlan
  deriving DecidableEq, Repr

/-- What a vendor-defined request asks for: a snapshot of an account (R283), the quantum of a class in ns (R255, log 73), or the load of
a launch (R298, log 76). -/
inductive VendorAsk where
  | snapshot (account : Nat) (nonce : List Byte)
  | quantum (cls ns : Nat)
  | load (plan : LaunchPlan)
  deriving DecidableEq, Repr

/-- What a debug read names (R284): an MMIO register, part of a slot, or all the state of a slot, a core's or control core's
site, a bank, a compute or memory die, a turnstile, an object, a router, the I/O die, a copy of a queue w4, the reservation queue of a
word, a barker, what is under way between cores, the packets on the networks. -/
inductive DebugTarget where
  | mmio (pa size : Nat)
  | g (r : SlotRef) (n : Nat)
  | v (r : SlotRef) (n : Nat)
  | m (r : SlotRef) (n : Nat)
  | pred (r : SlotRef)
  | pc (r : SlotRef)
  | creg (r : SlotRef) (n : Nat)
  | mem (key : Nat)
  | slot (r : SlotRef)
  | site (p : Nat)
  | bank (b : Nat)
  | die (d : Nat)
  | memoryDie (m : Nat)
  | turnstile (n : Nat)
  | object (n : Nat)
  | router (n : Nat)
  | iod
  | copy (id : Nat)
  | reservations (key : Nat)
  | barker (d row k : Nat)
  | sent
  | packets
  deriving DecidableEq, Repr

/-- Instructions (one constructor per encoded row, guard `q` first where the word has one) and events of the part
(rows without an encoding; their arguments name the unit they happen at and the data that comes in). -/
inductive Instr where
  -- prefix word (R50)
  | pfx (rlx sat : Bool) (rm : Rm)
  -- ALU3 group (R54)
  | add (q : R4) (w : Bool) (b a d : R4)
  | sub (q : R4) (w : Bool) (b a d : R4)
  | mul (q : R4) (w : Bool) (b a d : R4)
  | mulh (q : R4) (u w : Bool) (b a d : R4)
  | div (q : R4) (u w : Bool) (b a d : R4)
  | rem (q : R4) (u w : Bool) (b a d : R4)
  | and (q : R4) (b a d : R4)
  | or (q : R4) (b a d : R4)
  | xor (q : R4) (b a d : R4)
  | shl (q : R4) (w : Bool) (b a d : R4)
  | shr (q : R4) (w : Bool) (b a d : R4)
  | sha (q : R4) (w : Bool) (b a d : R4)
  | rot (q : R4) (w : Bool) (b a d : R4)
  | min (q : R4) (u w : Bool) (b a d : R4)
  | max (q : R4) (u w : Bool) (b a d : R4)
  | sel (q : R4) (b a d : R4)
  | clz (q : R4) (w : Bool) (a d : R4)
  | popc (q : R4) (w : Bool) (a d : R4)
  | mad (q : R4) (w : Bool) (b a d : R4)
  | mov (q : R4) (a d : R4)
  | ext (q : R4) (b a d : R4)
  | ins (q : R4) (b a d : R4)
  -- immediates, compares, predicates (R53)
  | addi (q : R4) (imm : BitVec 11) (a d : R4)
  | andi (q : R4) (imm : BitVec 11) (a d : R4)
  | ori (q : R4) (imm : BitVec 11) (a d : R4)
  | xori (q : R4) (imm : BitVec 11) (a d : R4)
  | cmpi (q : R4) (c : Cond) (imm : Byte) (a p : R4)
  | cmp (q : R4) (u : Bool) (c : Cond) (b a p : R4)
  | qand (q : R4) (b a d : R4)
  | qor (q : R4) (b a d : R4)
  | qxor (q : R4) (b a d : R4)
  | qnot (q : R4) (a d : R4)
  -- loads, stores, reservations, atomics (R53, R57)
  | ldI8 (q : R4) (disp : Byte) (sg : BitVec 3) (a d : R4)
  | ldI16 (q : R4) (disp : Byte) (sg : BitVec 3) (a d : R4)
  | ldI32 (q : R4) (disp : Byte) (sg : BitVec 3) (a d : R4)
  | ldI64 (q : R4) (disp : Byte) (sg : BitVec 3) (a d : R4)
  | ldN8 (q : R4) (disp : Byte) (sg : BitVec 3) (a d : R4)
  | ldN16 (q : R4) (disp : Byte) (sg : BitVec 3) (a d : R4)
  | ldN32 (q : R4) (disp : Byte) (sg : BitVec 3) (a d : R4)
  | ldLong (q : R4) (t : LdType) (disp : Word) (sg : BitVec 3) (a d : R4)
  | st (q : R4) (z : BitVec 2) (disp : Byte) (sg : BitVec 3) (a d : R4)
  | stLong (q : R4) (z : BitVec 2) (disp : Word) (sg : BitVec 3) (a d : R4)
  | lrw (q : R4) (disp : Byte) (sg : BitVec 3) (a d : R4)
  | sch (q : R4) (disp : Byte) (sg : BitVec 3) (a d : R4)
  | rrel (q : R4) (disp : Byte) (sg : BitVec 3) (a : R4)
  | aadd (q : R4) (disp : Byte) (sg : BitVec 3) (a d : R4)
  | aand (q : R4) (disp : Byte) (sg : BitVec 3) (a d : R4)
  | aor (q : R4) (disp : Byte) (sg : BitVec 3) (a d : R4)
  | axor (q : R4) (disp : Byte) (sg : BitVec 3) (a d : R4)
  | amin (q : R4) (disp : Byte) (sg : BitVec 3) (a d : R4)
  | amax (q : R4) (disp : Byte) (sg : BitVec 3) (a d : R4)
  | axch (q : R4) (disp : Byte) (sg : BitVec 3) (a d : R4)
  | acas (q : R4) (wide : Bool) (disp : Word) (sg : BitVec 3) (b a d : R4)
  -- control flow (R53, R57)
  | br (q : R4) (disp : BitVec 19)
  | call (q : R4) (disp : BitVec 19)
  | jmpr (q : R4) (a : R4)
  | jmp (q : R4) (disp : Word)
  | ret (q : R4)
  | loop (q : R4) (disp : BitVec 15) (c : R4)
  | rpt (q : R4) (vstep : BitVec 3) (count : Byte) (n : R4)
  | nop (q : R4)
  | trap (q : R4) (code : BitVec 11)
  | tret (q : R4)
  | yield (q : R4)
  | quit (q : R4)
  | vote (q : R4) (all : Bool) (a d : R4)
  | getc (q : R4) (n : BitVec 11) (d : R4)
  | setc (q : R4) (n : BitVec 11) (a : R4)
  | sets (q : R4) (imm : BitVec 11) (a : R4) (sn : BitVec 3)
  -- synchronisation (R53)
  | recv (q : R4) (mask : BitVec 16) (pair : BitVec 3)
  | swait (q : R4) (a j : R4)
  | sadd (q : R4) (a j : R4)
  | sset (q : R4) (a j : R4)
  | saddLong (q : R4) (b a j : R4)
  | bara (q : R4) (a id : R4)
  | barw (q : R4) (a id : R4)
  | fence (q : R4) (a : R4)
  | time (q : R4) (d : R4)
  | pop (q : R4) (w : BitVec 3) (d : R4)
  | push (q : R4) (w : BitVec 2) (a : R4)
  -- banks (R53)
  | atch (q : R4) (a w : R4)
  | dtch (q : R4) (fault : Bool) (w : R4)
  | hovr (q : R4) (fault : Bool) (b a w : R4)
  | hovrNotice (q : R4) (mb : R4) (fault : Bool) (b a w : R4)
  | bqry (q : R4) (w d : R4)
  -- control-core instructions (R53)
  | wake (q : R4) (a : R4)
  | tlbi (q : R4) (scope : TlbScope) (a : R4)
  | disarm (q : R4) (a : R4)
  -- scalar floating point (R55, R53)
  | fadd (q : R4) (f : FType) (b a d : R4)
  | fsub (q : R4) (f : FType) (b a d : R4)
  | fmul (q : R4) (f : FType) (b a d : R4)
  | fdiv (q : R4) (f : FType) (b a d : R4)
  | fsqrt (q : R4) (f : FType) (a d : R4)
  | fmin (q : R4) (f : FType) (b a d : R4)
  | fmax (q : R4) (f : FType) (b a d : R4)
  | fma (q : R4) (f : FType) (b a d : R4)
  | fclass (q : R4) (f : FType) (a d : R4)
  | fcmp (q : R4) (f : FType) (c : Cond) (b a p : R4)
  | cvt (q : R4) (src dst : Fmt) (a d : R4)
  -- vector (R56)
  | vadd (q : R4) (t : VType) (z : Bool) (m : BitVec 3) (b a d : R4)
  | vsub (q : R4) (t : VType) (z : Bool) (m : BitVec 3) (b a d : R4)
  | vmul (q : R4) (t : VType) (z : Bool) (m : BitVec 3) (b a d : R4)
  | vfma (q : R4) (t : VType) (z : Bool) (m : BitVec 3) (b a d : R4)
  | vmin (q : R4) (t : VType) (z : Bool) (m : BitVec 3) (b a d : R4)
  | vmax (q : R4) (t : VType) (z : Bool) (m : BitVec 3) (b a d : R4)
  | vminN (q : R4) (t : VType) (z : Bool) (m : BitVec 3) (b a d : R4)
  | vmaxN (q : R4) (t : VType) (z : Bool) (m : BitVec 3) (b a d : R4)
  | vand (q : R4) (t : VType) (z : Bool) (m : BitVec 3) (b a d : R4)
  | vor (q : R4) (t : VType) (z : Bool) (m : BitVec 3) (b a d : R4)
  | vxor (q : R4) (t : VType) (z : Bool) (m : BitVec 3) (b a d : R4)
  | vshl (q : R4) (t : VType) (z : Bool) (m : BitVec 3) (b a d : R4)
  | vshrLogical (q : R4) (t : VType) (z : Bool) (m : BitVec 3) (b a d : R4)
  | vshrArithmetic (q : R4) (t : VType) (z : Bool) (m : BitVec 3) (b a d : R4)
  | vcmp (q : R4) (t : VType) (c : Cond) (b a : R4) (md : BitVec 3)
  | vcmpN (q : R4) (t : VType) (c : Cond) (b a : R4) (md : BitVec 3)
  | vsel (q : R4) (t : VType) (m : BitVec 3) (b a d : R4)
  | vmov (q : R4) (t : VType) (z : Bool) (m : BitVec 3) (a d : R4)
  | vbcst (q : R4) (t : VType) (z : Bool) (m : BitVec 3) (a d : R4)
  | vshuf (q : R4) (t : VType) (z : Bool) (m : BitVec 3) (b a d : R4)
  | vred (q : R4) (t : VType) (m : BitVec 3) (op : RedOp) (a d : R4)
  | vexp2 (q : R4) (t : VType) (z : Bool) (m : BitVec 3) (a d : R4)
  | vrcp (q : R4) (t : VType) (z : Bool) (m : BitVec 3) (a d : R4)
  | vrsq (q : R4) (t : VType) (z : Bool) (m : BitVec 3) (a d : R4)
  | vcvt (q : R4) (t : VType) (z : Bool) (m : BitVec 3) (f : Fmt) (a d : R4)
  | vcvtN (q : R4) (t : VType) (z : Bool) (m : BitVec 3) (f : Fmt) (a d : R4)
  | qscl (q : R4) (t : VType) (f : Fmt) (a d : R4)
  | qcvt (q : R4) (t : VType) (f : Fmt) (a d : R4)
  | pxpk (q : R4) (a d : R4)
  | pxun (q : R4) (a d : R4)
  | nput (q : R4) (dir : Dir) (a : R4)
  | nget (q : R4) (dir : Dir) (d : R4)
  | vld (q : R4) (disp : BitVec 5) (m : BitVec 3) (sg : BitVec 3) (a d : R4)
  | vst (q : R4) (disp : BitVec 5) (m : BitVec 3) (sg : BitVec 3) (a d : R4)
  | vlds (q : R4) (ts : BitVec 5) (m : BitVec 3) (sg : BitVec 3) (a d : R4)
  | vsts (q : R4) (ts : BitVec 5) (m : BitVec 3) (sg : BitVec 3) (a d : R4)
  | vgth (q : R4) (t : VType) (z : Bool) (m : BitVec 3) (b a d : R4)
  | vsct (q : R4) (t : VType) (m : BitVec 3) (b a d : R4)
  -- matrix (R56, R57)
  | mzero (q : R4) (n : BitVec 2)
  | msto (q : R4) (ts : BitVec 5) (sg : BitVec 3) (a : R4) (n : BitVec 2)
  | mstoStream (q : R4) (n : BitVec 2)
  | mlatch (q : R4) (ts : BitVec 5) (a : R4) (x : Bool)
  | mpass (q : R4) (dir : Dir) (x : Bool)
  | movi (q : R4) (imm : BitVec 47) (d : R4)
  | mmaLatch (q : R4) (ts : BitVec 5) (lat : Bool) (a : R4) (n : BitVec 2) (nb : BitVec 5) (accum passB : Bool)
  | mmaLocal (q : R4) (tsA tsB : BitVec 5) (b a : R4) (n : BitVec 2) (nb : BitVec 5) (accum : Bool)
  -- copies (R45)
  | cpyg (q : R4) (ts : BitVec 5) (c b w : R4) (sig : Option Signal) (msg : Option CopyMsg) (sg : BitVec 3)
  | cpyb (q : R4) (ts : BitVec 5) (c b w : R4) (sig : Option Signal) (msg : Option CopyMsg) (sg : BitVec 3)
  | cpyx (q : R4) (ts : BitVec 5) (c b w : R4) (sig : Option Signal) (msg : Option CopyMsg)
  | putr (q : R4) (ts : BitVec 5) (c b w : R4) (sig : Option Signal) (msg : Option CopyMsg) (sg : BitVec 3)
  | getr (q : R4) (ts : BitVec 5) (c b w : R4) (sig : Option Signal) (msg : Option CopyMsg) (sg : BitVec 3)
  -- shape slots, messages, launch, replay (R45, R57)
  | shld (q : R4) (ts : BitVec 5) (disp : Word) (sg : BitVec 3) (a : R4)
  | shst (q : R4) (ts : BitVec 5) (disp : Word) (sg : BitVec 3) (a : R4)
  | shev (q : R4) (ts : BitVec 5)
  | send (q : R4) (eos : Bool) (mb : R4) (b a : R4) (tag : BitVec 16) (cw : Bool)
  | sendt (q : R4) (c b a : R4) (tag : Word)
  | spawn (q : R4) (steal : Bool) (b a : R4)
  | arm (q : R4) (c b a : R4) (tag : Word)
  | rcall (q : R4) (method : BitVec 6) (c b a : R4) (wait : Bool)
  | rread (q : R4) (method : BitVec 6) (c b a : R4) (lin : Bool)
  | rwait (q : R4) (b a : R4)
  | rtrim (q : R4) (a : R4)
  -- events: slots and streams (chapter 04)
  | parkResume (r : SlotRef)
  | revocationDetach (core : Nat)
  | windowSpill (r : SlotRef)
  | windowFill (r : SlotRef)
  | barkerFetch (die row k : Nat)
  | streamWordArrival (core k : Nat)
  | voteResultArrival (die row k : Nat)
  | latchEntryArrival (core k : Nat) (dir : Dir)
  | spawnServe (die : Nat)
  | stealRequest (thief victim : Nat)
  | stealResponse (thief victim : Nat) (owners : List Nat)
  -- events: banks (chapter 05)
  | claimArrival (bank core w owner : Nat)
  | dtchDrainEnd (bank : Nat)
  | retentionEntryEnd (bank : Nat)
  | retentionExitEnd (bank : Nat)
  | hovrSwap (r : SlotRef)
  | bcmdAttach (die : Nat) (value : Dword)
  | bcmdSetowner (die : Nat) (value : Dword)
  | bcmdUnrevoke (die : Nat) (value : Dword)
  | bcmdRefused (die : Nat) (value : Dword)
  | setownerDone (bank : Nat)
  | cmapDeadSet (die row : Nat) (mask : Word)
  | cmapstRefusedClear (die : Nat)
  -- events: translation, migration, copies, egress (chapters 06 and 11)
  | tlbWalk (die owner va : Nat) (r : SlotRef)
  | pfqvRead (die : Nat)
  | tlbiDieAck (die id : Nat)
  | migrationGo (md : Nat) (value : Dword)
  | migrationEnd (md : Nat)
  | copyPacketLand (id packet : Nat)
  | copyFault (id : Nat) (kind : Nat)
  | egressQueueDrain (die n : Nat)
  -- events: messages, semaphores, reservations, barriers (chapter 09)
  | messageArrival (core owner mb : Nat) (msg : Message) (sender : Option SlotRef)
  | mailboxDivert (core mb : Nat)
  | arrivalLogMove (core mb : Nat)
  | semaphoreArrival (core j : Nat) (op : SemOp)
  | reservationGrant (key : Nat)
  | reservationForceRelease (r : SlotRef)
  | barrierArrival (core k id : Nat) (rect : Word)
  -- events: replayed objects (chapter 10)
  | objectCreate (n : Nat) (word0 : Dword)
  | objectDestroy (n : Nat)
  | replayAppend (r : SlotRef)
  | carouselApply (die : Nat)
  | carouselRead (die : Nat)
  | appliedPositionReport (die n : Nat)
  | replicaResync (n die : Nat)
  -- events: launches and scheduling (chapter 12)
  | taggedMessage (msg : Tagged)
  | turnstileCountResume (n : Nat)
  | loadRectangle (n : Nat)
  | quantumExpiry (n : Nat)
  | contextIdle (n : Nat)
  | preemption (n incoming : Nat)
  | restore (n : Nat)
  | turnstileRelease (n : Nat)
  -- events: matrix unit (chapter 08)
  | mmaRun (core : Nat)
  | mlatchRun (core : Nat)
  | mstoRun (core : Nat)
  | mzeroRun (core : Nat)
  | latchPass (core : Nat) (x : Bool) (dir : Dir)
  -- events: networks, time, fabric (chapter 13)
  | packetHop (router port : Nat)
  | timeRequest (r : SlotRef)
  | requestTimeout (id : Nat)
  -- events: boot, management, accounting, freeze (chapter 13)
  | bankMicrosecondSample
  | checkpointGo (value : Dword)
  | checkpointEnd (lost : Bool)
  | ccrunStart (socket n k : Nat)
  | ccrunStop (socket n k : Nat)
  | ccromRomoff
  -- events: duties and the host (chapter 13)
  | dutyHostTimeout (f : Nat)
  | mmioRegisterWrite (pa : Nat) (data : List Byte)
  -- events: words that are no instruction, markers, accesses under way (chapters 03, 04, 11)
  | notAnInstruction (w : Word) (why : BadWord)
  | streamImageEndMarker (beyond : BitVec 32)
  | streamerTrafficInjection (core : Nat)
  | accessReply (r : SlotRef) (id : Nat)
  | accessRequestArrival (r : SlotRef) (id : Nat)
  | tailFetch (r : SlotRef)
  -- stimuli that only the outside gives (chapter 13)
  | fabricLoadRequest (p : Packet)
  | fabricStore (p : Packet)
  | fabricAtomic (p : Packet)
  | fabricGetrRequest (p : Packet)
  | fabricPutrData (p : Packet)
  | fabricAck (p : Packet)
  | fabricRefusal (p : Packet)
  | fabricAtomicReply (p : Packet)
  | fabricLoadData (p : Packet)
  | fabricBadOp (port : Nat) (p : Packet)
  | headerCrcError (port : Nat)
  | powerOn (image signature : List Byte)
  | coldReset
  | getVersion (request : SpdmMessage)
  | getCapabilities (request : SpdmMessage)
  | negotiateAlgorithms (request : SpdmMessage)
  | getDigests (request : SpdmMessage)
  | getCertificate (request : SpdmMessage)
  | challenge (request : SpdmMessage)
  | getMeasurements (request : SpdmMessage)
  | keyExchange (request : SpdmMessage)
  | finish (request : SpdmMessage)
  | keyUpdate (request : SpdmMessage)
  | heartbeat (request : SpdmMessage)
  | endSession (request : SpdmMessage)
  | vendorDefinedRequest (way : Way) (asked : VendorAsk)
  | frzAssert
  | thaw
  | debugRead (t : DebugTarget)
  | thermalReport (die : Nat) (celsius : Int)
  | thermalClockRestore
  | hostEventAck (port device seq code : Nat)
  | hostWake (device f socket seq : Nat) (value : Dword)
  | hostBcmd (device f socket seq : Nat) (value : Dword)
  | hostRtrim (device f socket seq : Nat) (value : Dword)
  | hostArm (device f socket seq : Nat) (index rect desc tag : Dword)
  | hostDisarm (device f socket seq : Nat) (index : Dword)
  | hostMigc (device f socket seq : Nat) (value : Dword)
  | hostCkpt (device f socket seq : Nat) (value : Dword)
  | hostTlbi (device f socket seq : Nat) (value scope : Dword)
  | hostPhysicalWrite (device f socket seq : Nat) (pa : Dword) (data : List Byte)
  | hostPhysicalRead (device f socket seq : Nat) (pa : Dword) (length : Nat)
  | portDown (port : Nat)
  | portUp (port : Nat) (key : Bool)
  | linkResendRequest (port seq : Nat)
  | powerRemoval
  | newFirstStage (image signature : List Byte)
  deriving DecidableEq, Repr

end Sys2Proof
end

