-- ==== Sys2Proof/WellFormed.lean ====
section
/-! DEFINITION. Which instructions the encodings of chapter 03 admit: the limits of R43, R45, R53-R57 that the operand
types of `Instr` do not already carry. -/
namespace Sys2Proof

/-- Integer types of type3 (R56: 000-011). -/
def VType.isInt : VType → Bool
  | .i8 | .i16 | .i32 | .i64 => true
  | _ => false

/-- Float types of type3 (R56: 100-110). -/
def VType.isFloat (t : VType) : Bool := !t.isInt

/-- Zeroing under m0 is refused (R43). -/
def zOk (z : Bool) (m : BitVec 3) : Bool := !z || m != 0

/-- Queue codes POP accepts (R53): w0-w3 and w6. -/
def popQueue (w : BitVec 3) : Bool := w.toNat ≤ 3 || w == 6

/-- Mask destinations of VCMP (R56): m1-m7. -/
def cmpMask (m : BitVec 3) : Bool := m != 0

/-- Destination formats of VCVT (R56): not px8, not f48. -/
def vcvtFmt (f : Fmt) : Bool := f != .px8 && f != .f48

/-- Access size of the long LD in bytes (R57). -/
def LdType.bytes : LdType → Nat
  | .i8 | .n8 => 1
  | .i16 | .n16 => 2
  | .i32 | .n32 => 4
  | .i64 | .n64 => 8

/-- Limits on an instruction that its types do not carry (R43, R44, R45, R53, R56, R57).
Events and words that are no instruction carry none. -/
def Instr.wf : Instr → Bool
  | .sets _ _ _ sn => sn != 0
  | .recv _ mask _ => mask != 0
  | .pop _ w _ => popQueue w
  | .cvt _ src dst _ _ => src != .px8 && dst != .px8
  | .ldLong _ t disp _ _ _ => disp.toNat % t.bytes == 0
  | .stLong _ z disp _ _ _ => disp.toNat % 2 ^ z.toNat == 0
  | .acas _ wide disp _ _ _ _ => disp.toNat % (if wide then 8 else 4) == 0
  | .shld _ _ disp _ _ => disp.toNat % 32 == 0
  | .shst _ _ disp _ _ => disp.toNat % 32 == 0
  | .vadd _ _ z m _ _ _ | .vsub _ _ z m _ _ _ | .vmul _ _ z m _ _ _ | .vfma _ _ z m _ _ _
  | .vmin _ _ z m _ _ _ | .vmax _ _ z m _ _ _ | .vshuf _ _ z m _ _ _ | .vgth _ _ z m _ _ _ => zOk z m
  | .vminN _ t z m _ _ _ | .vmaxN _ t z m _ _ _ | .vand _ t z m _ _ _ | .vor _ t z m _ _ _
  | .vxor _ t z m _ _ _ | .vshl _ t z m _ _ _ | .vshrLogical _ t z m _ _ _
  | .vshrArithmetic _ t z m _ _ _ => t.isInt && zOk z m
  | .vcmp _ _ _ _ _ md => cmpMask md
  | .vcmpN _ t _ _ _ md => t.isInt && cmpMask md
  | .vmov _ _ z m _ _ | .vbcst _ _ z m _ _ => zOk z m
  | .vexp2 _ t z m _ _ | .vrcp _ t z m _ _ | .vrsq _ t z m _ _ => t.isFloat && zOk z m
  | .vcvt _ _ z m f _ _ => zOk z m && vcvtFmt f
  | .vcvtN _ t z m f _ _ => t.isInt && zOk z m && vcvtFmt f
  | .qscl _ t f a _ => t.isFloat && (f == .e4m3 || f == .e5m2 || f == .px8) && (t != .f32 || a.toNat % 2 == 0)
  | .qcvt _ t f a _ => t.isFloat && (f == .e4m3 || f == .e5m2) && (t != .f32 || a.toNat % 2 == 0)
  | .cpyg _ _ _ _ _ _ _ sg | .cpyb _ _ _ _ _ _ _ sg | .putr _ _ _ _ _ _ _ sg
  | .getr _ _ _ _ _ _ _ sg => sg != 0
  | .vlds _ _ _ _ a _ | .vsts _ _ _ _ a _ => a.toNat % 2 == 0
  | .rcall _ _ c b _ _ => c.toNat ≤ 14 && b.toNat ≤ 12
  | .rread _ _ c b _ _ => c.toNat ≤ 14 && b.toNat ≤ 12
  | _ => true

end Sys2Proof
end

