-- ==== Sys2Proof/Decode.lean ====
section
/-! DEFINITION. Decoding of instruction words (chapter 03) and, after it, the encoder written from the same tables.
A word is cut into seven fields whose bounds every layout respects: q [31:28], f7 [27:21], b [20:17], a [16:13],
d [12:9], OP7 [8:2] and the length selector [1:0] (R38, R42-R44). -/
namespace Sys2Proof

/-- The seven fields of a word. -/
structure Fields where
  q : R4
  f7 : BitVec 7
  b : R4
  a : R4
  d : R4
  op : BitVec 7
  ls : BitVec 2
  deriving DecidableEq, Repr

/-- A word cut into its fields (R42-R44). -/
def cut (w : Word) : Fields :=
  { q := w.extractLsb' 28 4, f7 := w.extractLsb' 21 7, b := w.extractLsb' 17 4, a := w.extractLsb' 13 4,
    d := w.extractLsb' 9 4, op := w.extractLsb' 2 7, ls := w.extractLsb' 0 2 }

/-- Fields laid out as a word. -/
def Fields.pack (f : Fields) : Word := f.q ++ f.f7 ++ f.b ++ f.a ++ f.d ++ f.op ++ f.ls

/-! Field codes. -/

/-- type3 (R48); 111 is refused. -/
def VType.ofCode (c : BitVec 3) : Option VType :=
  match c.toNat with
  | 0 => some .i8 | 1 => some .i16 | 2 => some .i32 | 3 => some .i64
  | 4 => some .bf16 | 5 => some .f16 | 6 => some .f32 | _ => none

/-- type3 code of a type (R48). -/
def VType.code : VType → BitVec 3
  | .i8 => 0 | .i16 => 1 | .i32 => 2 | .i64 => 3 | .bf16 => 4 | .f16 => 5 | .f32 => 6

/-- FMT4 (R47). -/
def Fmt.ofCode (c : R4) : Fmt :=
  match c.toNat with
  | 0 => .i8 | 1 => .i16 | 2 => .i32 | 3 => .i64 | 4 => .n8 | 5 => .n16 | 6 => .n32 | 7 => .n64
  | 8 => .f16 | 9 => .bf16 | 10 => .f32 | 11 => .e4m3 | 12 => .e5m2 | 13 => .e8m0 | 14 => .px8 | _ => .f48

/-- FMT4 code of a format (R47). -/
def Fmt.code : Fmt → R4
  | .i8 => 0 | .i16 => 1 | .i32 => 2 | .i64 => 3 | .n8 => 4 | .n16 => 5 | .n32 => 6 | .n64 => 7
  | .f16 => 8 | .bf16 => 9 | .f32 => 10 | .e4m3 => 11 | .e5m2 => 12 | .e8m0 => 13 | .px8 => 14 | .f48 => 15

/-- Conditions (R49); 110 and 111 are refused. -/
def Cond.ofCode (c : BitVec 3) : Option Cond :=
  match c.toNat with
  | 0 => some .eq | 1 => some .ne | 2 => some .lt | 3 => some .le | 4 => some .gt | 5 => some .ge | _ => none

/-- Code of a condition (R49). -/
def Cond.code : Cond → BitVec 3
  | .eq => 0 | .ne => 1 | .lt => 2 | .le => 3 | .gt => 4 | .ge => 5

/-- Scalar float format of func7[6:5] (R55); 11 is refused. -/
def FType.ofCode (c : BitVec 2) : Option FType :=
  match c.toNat with
  | 0 => some .f32 | 1 => some .bf16 | 2 => some .f16 | _ => none

/-- Code of a scalar float format (R55). -/
def FType.code : FType → BitVec 2
  | .f32 => 0 | .bf16 => 1 | .f16 => 2

/-- Directions (R46). -/
def Dir.ofCode (c : BitVec 2) : Dir :=
  match c.toNat with
  | 0 => .east | 1 => .west | 2 => .north | _ => .south

/-- Code of a direction (R46). -/
def Dir.code : Dir → BitVec 2
  | .east => 0 | .west => 1 | .north => 2 | .south => 3

/-- Size codes of the long LD (R57): 0-7. -/
def LdType.ofCode (c : R4) : Option LdType :=
  match c.toNat with
  | 0 => some .i8 | 1 => some .i16 | 2 => some .i32 | 3 => some .i64
  | 4 => some .n8 | 5 => some .n16 | 6 => some .n32 | 7 => some .n64 | _ => none

/-- Size code of the long LD (R57). -/
def LdType.code : LdType → R4
  | .i8 => 0 | .i16 => 1 | .i32 => 2 | .i64 => 3 | .n8 => 4 | .n16 => 5 | .n32 => 6 | .n64 => 7

/-- TLBI scope (R53); 11 is refused. -/
def TlbScope.ofCode (c : BitVec 2) : Option TlbScope :=
  match c.toNat with
  | 0 => some .page | 1 => some .owner | 2 => some .all | _ => none

/-- Code of a TLBI scope (R53). -/
def TlbScope.code : TlbScope → BitVec 2
  | .page => 0 | .owner => 1 | .all => 2

/-- VRED operation of vb[1:0] (R56); 11 is refused. -/
def RedOp.ofCode (c : BitVec 2) : Option RedOp :=
  match c.toNat with
  | 0 => some .sum | 1 => some .min | 2 => some .max | _ => none

/-- Code of a VRED operation (R56). -/
def RedOp.code : RedOp → BitVec 2
  | .sum => 0 | .min => 1 | .max => 2

/-- Rounding field of a prefix (R50); 101-111 are malformed. -/
def Rm.ofCode (c : BitVec 3) : Option Rm :=
  match c.toNat with
  | 0 => some .dflt | 1 => some .rne | 2 => some .rz | 3 => some .ru | 4 => some .rd | _ => none

/-- Code of a rounding field (R50). -/
def Rm.code : Rm → BitVec 3
  | .dflt => 0 | .rne => 1 | .rz => 2 | .ru => 3 | .rd => 4

/-! Results of decoding. -/

/-- What a decoder answers: an instruction, or why the word is none (R41 step 2). -/
abbrev Dec := Except BadWord Instr

/-- Reserved bits must be zero (R42). -/
def need (zero : Bool) (i : Instr) : Dec := if zero then .ok i else .error .reserved

/-- A field value that the tables refuse (R53-R57). -/
def limit (c : Bool) (r : Dec) : Dec := if c then r else .error .refused

/-- A coded field: a code with no meaning is refused (R48, R49, R53, R55-R57). -/
def code {α : Type} (o : Option α) (k : α → Dec) : Dec :=
  match o with
  | some x => k x
  | none => .error .refused

/-! Parts of fields that layouts name. -/

/-- disp8 of S.M [27:20]. -/
def Fields.disp8 (f : Fields) : Byte := f.f7 ++ f.b.extractLsb' 3 1
/-- seg of S.M, V.M and L.M [19:17]. -/
def Fields.seg (f : Fields) : BitVec 3 := f.b.extractLsb' 0 3
/-- imm11 of S.RRI [27:17]. -/
def Fields.imm11 (f : Fields) : BitVec 11 := f.f7 ++ f.b
/-- disp19 of S.BR [27:9]. -/
def Fields.disp19 (f : Fields) : BitVec 19 := f.f7 ++ f.b ++ f.a ++ f.d
/-- cond of S.CI [27:25] and type3 of V.RRR. -/
def Fields.top3 (f : Fields) : BitVec 3 := f.f7.extractLsb' 4 3
/-- mask of V.RRR [23:21], func7[2:0]. -/
def Fields.low3 (f : Fields) : BitVec 3 := f.f7.extractLsb' 0 3
/-- z of V.RRR [24]. -/
def Fields.z (f : Fields) : Bool := f.f7.getLsbD 3
/-- disp5 or ts of V.M [27:23], the ts of L.C. -/
def Fields.ts (f : Fields) : BitVec 5 := f.f7.extractLsb' 2 5
/-- mask of V.M [22:20]. -/
def Fields.maskM (f : Fields) : BitVec 3 := f.f7.extractLsb' 0 2 ++ f.b.extractLsb' 3 1
/-- func7[1:0]. -/
def Fields.low2 (f : Fields) : BitVec 2 := f.f7.extractLsb' 0 2
/-- func7[6:5]. -/
def Fields.top2 (f : Fields) : BitVec 2 := f.f7.extractLsb' 5 2
/-- size of L.M [23:20]. -/
def Fields.size (f : Fields) : R4 := f.f7.extractLsb' 0 3 ++ f.b.extractLsb' 3 1
/-- rb of L.M [27:24]. -/
def Fields.rbM (f : Fields) : R4 := f.f7.extractLsb' 3 4

/-! Decoders, one per class. -/

/-- The ALU3 group (R54): func7[4:0] operation, [5] w32, [6] unsigned. -/
def decodeAlu (f : Fields) : Dec :=
  let w := f.f7.getLsbD 5
  let u := f.f7.getLsbD 6
  let noU := !u
  let noWU := !w && !u
  let noRb := f.b == 0
  match (f.f7.extractLsb' 0 5).toNat with
  | 0x00 => limit noU (.ok (.add f.q w f.b f.a f.d))
  | 0x01 => limit noU (.ok (.sub f.q w f.b f.a f.d))
  | 0x02 => limit noU (.ok (.mul f.q w f.b f.a f.d))
  | 0x03 => .ok (.mulh f.q u w f.b f.a f.d)
  | 0x04 => .ok (.div f.q u w f.b f.a f.d)
  | 0x05 => .ok (.rem f.q u w f.b f.a f.d)
  | 0x06 => limit noWU (.ok (.and f.q f.b f.a f.d))
  | 0x07 => limit noWU (.ok (.or f.q f.b f.a f.d))
  | 0x08 => limit noWU (.ok (.xor f.q f.b f.a f.d))
  | 0x09 => limit noU (.ok (.shl f.q w f.b f.a f.d))
  | 0x0A => limit noU (.ok (.shr f.q w f.b f.a f.d))
  | 0x0B => limit noU (.ok (.sha f.q w f.b f.a f.d))
  | 0x0C => limit noU (.ok (.rot f.q w f.b f.a f.d))
  | 0x0D => .ok (.min f.q u w f.b f.a f.d)
  | 0x0E => .ok (.max f.q u w f.b f.a f.d)
  | 0x0F => limit noWU (.ok (.sel f.q f.b f.a f.d))
  | 0x10 => limit noU (need noRb (.clz f.q w f.a f.d))
  | 0x11 => limit noU (need noRb (.popc f.q w f.a f.d))
  | 0x12 => limit noU (.ok (.mad f.q w f.b f.a f.d))
  | 0x13 => limit noWU (need noRb (.mov f.q f.a f.d))
  | 0x14 => limit noWU (.ok (.ext f.q f.b f.a f.d))
  | 0x15 => limit noWU (.ok (.ins f.q f.b f.a f.d))
  | _ => .error .unassigned

/-- The FOP group (R55): func7[6:5] format, [4:0] operation. -/
def decodeFop (f : Fields) : Dec :=
  code (FType.ofCode f.top2) fun t =>
  let noRb := f.b == 0
  match (f.f7.extractLsb' 0 5).toNat with
  | 0 => .ok (.fadd f.q t f.b f.a f.d)
  | 1 => .ok (.fsub f.q t f.b f.a f.d)
  | 2 => .ok (.fmul f.q t f.b f.a f.d)
  | 3 => .ok (.fdiv f.q t f.b f.a f.d)
  | 4 => need noRb (.fsqrt f.q t f.a f.d)
  | 5 => .ok (.fmin f.q t f.b f.a f.d)
  | 6 => .ok (.fmax f.q t f.b f.a f.d)
  | 7 => .ok (.fma f.q t f.b f.a f.d)
  | 8 => need noRb (.fclass f.q t f.a f.d)
  | _ => .error .unassigned

/-- Predicate logic (R53, QLOG): func7 selects. -/
def decodeQlog (f : Fields) : Dec :=
  match f.f7.toNat with
  | 0 => .ok (.qand f.q f.b f.a f.d)
  | 1 => .ok (.qor f.q f.b f.a f.d)
  | 2 => .ok (.qxor f.q f.b f.a f.d)
  | 3 => need (f.b == 0) (.qnot f.q f.a f.d)
  | _ => .error .unassigned

/-- Class S (R53). -/
def decodeS (f : Fields) : Dec :=
  let bare := f.f7 == 0 && f.b == 0 && f.a == 0 && f.d == 0
  let raRd := f.f7 == 0 && f.b == 0
  match f.op.toNat with
  | 0x00 => decodeAlu f
  | 0x01 => .ok (.addi f.q f.imm11 f.a f.d)
  | 0x02 => .ok (.andi f.q f.imm11 f.a f.d)
  | 0x03 => .ok (.ori f.q f.imm11 f.a f.d)
  | 0x04 => .ok (.xori f.q f.imm11 f.a f.d)
  | 0x05 => code (Cond.ofCode f.top3) fun c => .ok (.cmpi f.q c (f.f7.extractLsb' 0 4 ++ f.b) f.a f.d)
  | 0x06 => code (Cond.ofCode f.low3) fun c =>
      need (f.f7.extractLsb' 3 3 == 0) (.cmp f.q (f.f7.getLsbD 6) c f.b f.a f.d)
  | 0x07 => decodeQlog f
  | 0x08 => .ok (.ldI8 f.q f.disp8 f.seg f.a f.d)
  | 0x09 => .ok (.ldI16 f.q f.disp8 f.seg f.a f.d)
  | 0x0A => .ok (.ldI32 f.q f.disp8 f.seg f.a f.d)
  | 0x0B => .ok (.ldI64 f.q f.disp8 f.seg f.a f.d)
  | 0x0C => .ok (.ldN8 f.q f.disp8 f.seg f.a f.d)
  | 0x0D => .ok (.ldN16 f.q f.disp8 f.seg f.a f.d)
  | 0x0E => .ok (.ldN32 f.q f.disp8 f.seg f.a f.d)
  | 0x10 => .ok (.st f.q 0 f.disp8 f.seg f.a f.d)
  | 0x11 => .ok (.st f.q 1 f.disp8 f.seg f.a f.d)
  | 0x12 => .ok (.st f.q 2 f.disp8 f.seg f.a f.d)
  | 0x13 => .ok (.st f.q 3 f.disp8 f.seg f.a f.d)
  | 0x14 => .ok (.lrw f.q f.disp8 f.seg f.a f.d)
  | 0x15 => .ok (.sch f.q f.disp8 f.seg f.a f.d)
  | 0x16 => need (f.d == 0) (.rrel f.q f.disp8 f.seg f.a)
  | 0x18 => .ok (.aadd f.q f.disp8 f.seg f.a f.d)
  | 0x19 => .ok (.aand f.q f.disp8 f.seg f.a f.d)
  | 0x1A => .ok (.aor f.q f.disp8 f.seg f.a f.d)
  | 0x1B => .ok (.axor f.q f.disp8 f.seg f.a f.d)
  | 0x1C => .ok (.amin f.q f.disp8 f.seg f.a f.d)
  | 0x1D => .ok (.amax f.q f.disp8 f.seg f.a f.d)
  | 0x1E => .ok (.axch f.q f.disp8 f.seg f.a f.d)
  | 0x20 => .ok (.br f.q f.disp19)
  | 0x21 => .ok (.call f.q f.disp19)
  | 0x22 => need (raRd && f.d == 0) (.jmpr f.q f.a)
  | 0x23 => need bare (.ret f.q)
  | 0x24 => .ok (.loop f.q (f.f7 ++ f.b ++ f.a) f.d)
  | 0x25 => need (f.rbM == 0) (.rpt f.q f.low3 (f.b ++ f.a) f.d)
  | 0x26 => need bare (.nop f.q)
  | 0x27 => need (f.a == 0 && f.d == 0) (.trap f.q f.imm11)
  | 0x28 => need bare (.tret f.q)
  | 0x29 => need bare (.yield f.q)
  | 0x2A => need bare (.quit f.q)
  | 0x2B => need (f.f7.extractLsb' 1 6 == 0 && f.b == 0) (.vote f.q (f.f7.getLsbD 0) f.a f.d)
  | 0x2C => need (f.a == 0) (.getc f.q f.imm11 f.d)
  | 0x2D => need (f.d == 0) (.setc f.q f.imm11 f.a)
  | 0x2E => limit (f.d.getLsbD 3 == false && f.d != 0) (.ok (.sets f.q f.imm11 f.a (f.d.extractLsb' 0 3)))
  | 0x30 =>
      let mask := f.f7 ++ f.b ++ f.a ++ f.d.extractLsb' 3 1
      limit (mask != 0) (.ok (.recv f.q mask (f.d.extractLsb' 0 3)))
  | 0x31 => need raRd (.swait f.q f.a f.d)
  | 0x32 => need raRd (.sadd f.q f.a f.d)
  | 0x33 => need raRd (.sset f.q f.a f.d)
  | 0x34 => need raRd (.bara f.q f.a f.d)
  | 0x35 => need raRd (.barw f.q f.a f.d)
  | 0x36 => need (raRd && f.d == 0) (.fence f.q f.a)
  | 0x37 => need (raRd && f.a == 0) (.time f.q f.d)
  | 0x38 => limit (popQueue f.seg) (need (f.f7 == 0 && f.b.getLsbD 3 == false && f.a == 0) (.pop f.q f.seg f.d))
  | 0x39 => limit (f.b.getLsbD 2 == false)
      (need (f.f7 == 0 && f.b.getLsbD 3 == false && f.d == 0) (.push f.q (f.b.extractLsb' 0 2) f.a))
  | 0x3B => need raRd (.atch f.q f.a f.d)
  | 0x3C => need (f.f7 == 0 && f.b.extractLsb' 1 3 == 0 && f.a == 0) (.dtch f.q (f.b.getLsbD 0) f.d)
  | 0x3D =>
      if f.f7.getLsbD 1 then
        need (f.f7.getLsbD 6 == false) (.hovrNotice f.q (f.f7.extractLsb' 2 4) (f.f7.getLsbD 0) f.b f.a f.d)
      else need (f.f7.extractLsb' 1 6 == 0) (.hovr f.q (f.f7.getLsbD 0) f.b f.a f.d)
  | 0x3E => need (f.f7 == 0 && f.a == 0) (.bqry f.q f.b f.d)
  | 0x3F => need (raRd && f.d == 0) (.wake f.q f.a)
  | 0x40 => code (TlbScope.ofCode (f.b.extractLsb' 0 2)) fun sc =>
      need (f.f7 == 0 && f.b.extractLsb' 2 2 == 0 && f.d == 0) (.tlbi f.q sc f.a)
  | 0x41 => need (raRd && f.d == 0) (.disarm f.q f.a)
  | 0x48 => decodeFop f
  | 0x49 => code (FType.ofCode f.top2) fun t => code (Cond.ofCode f.low3) fun c =>
      need (f.f7.extractLsb' 3 2 == 0) (.fcmp f.q t c f.b f.a f.d)
  | 0x4A =>
      let src := Fmt.ofCode (f.f7.extractLsb' 0 4)
      let dst := Fmt.ofCode f.b
      limit (src != .px8 && dst != .px8) (need (f.f7.extractLsb' 4 3 == 0) (.cvt f.q src dst f.a f.d))
  | _ => .error .unassigned

/-- Class V (R56). -/
def decodeV (f : Fields) : Dec :=
  let m := f.low3
  let fmt := Fmt.ofCode f.b
  let noVb := f.b == 0
  let any (k : VType → Dec) : Dec := code (VType.ofCode f.top3) k
  let int (k : VType → Dec) : Dec := any fun t => limit t.isInt (k t)
  let flt (k : VType → Dec) : Dec := any fun t => limit t.isFloat (k t)
  let lanes (k : VType → Dec) : Dec := any fun t => limit (zOk f.z m) (k t)
  let intLanes (k : VType → Dec) : Dec := int fun t => limit (zOk f.z m) (k t)
  let dir := Dir.ofCode (f.b.extractLsb' 0 2)
  let acc := f.d.extractLsb' 0 2
  let lat := f.d.getLsbD 0
  match f.op.toNat with
  | 0x00 => lanes fun t => .ok (.vadd f.q t f.z m f.b f.a f.d)
  | 0x01 => lanes fun t => .ok (.vsub f.q t f.z m f.b f.a f.d)
  | 0x02 => lanes fun t => .ok (.vmul f.q t f.z m f.b f.a f.d)
  | 0x03 => lanes fun t => .ok (.vfma f.q t f.z m f.b f.a f.d)
  | 0x04 => lanes fun t => .ok (.vmin f.q t f.z m f.b f.a f.d)
  | 0x05 => lanes fun t => .ok (.vmax f.q t f.z m f.b f.a f.d)
  | 0x06 => intLanes fun t => .ok (.vminN f.q t f.z m f.b f.a f.d)
  | 0x07 => intLanes fun t => .ok (.vmaxN f.q t f.z m f.b f.a f.d)
  | 0x08 => intLanes fun t => .ok (.vand f.q t f.z m f.b f.a f.d)
  | 0x09 => intLanes fun t => .ok (.vor f.q t f.z m f.b f.a f.d)
  | 0x0A => intLanes fun t => .ok (.vxor f.q t f.z m f.b f.a f.d)
  | 0x0B => intLanes fun t => .ok (.vshl f.q t f.z m f.b f.a f.d)
  | 0x0C => intLanes fun t => .ok (.vshrLogical f.q t f.z m f.b f.a f.d)
  | 0x0D => intLanes fun t => .ok (.vshrArithmetic f.q t f.z m f.b f.a f.d)
  | 0x0E => any fun t => code (Cond.ofCode m) fun c =>
      limit (f.d.getLsbD 3 == false && f.d != 0) (need (!f.z) (.vcmp f.q t c f.b f.a (f.d.extractLsb' 0 3)))
  | 0x0F => int fun t => code (Cond.ofCode m) fun c =>
      limit (f.d.getLsbD 3 == false && f.d != 0) (need (!f.z) (.vcmpN f.q t c f.b f.a (f.d.extractLsb' 0 3)))
  | 0x10 => any fun t => need (!f.z) (.vsel f.q t m f.b f.a f.d)
  | 0x11 => lanes fun t => need noVb (.vmov f.q t f.z m f.a f.d)
  | 0x12 => lanes fun t => need noVb (.vbcst f.q t f.z m f.a f.d)
  | 0x13 => lanes fun t => .ok (.vshuf f.q t f.z m f.b f.a f.d)
  | 0x14 => any fun t => code (RedOp.ofCode (f.b.extractLsb' 0 2)) fun o =>
      need (!f.z && f.b.extractLsb' 2 2 == 0) (.vred f.q t m o f.a f.d)
  | 0x15 => flt fun t => limit (zOk f.z m) (need noVb (.vexp2 f.q t f.z m f.a f.d))
  | 0x16 => flt fun t => limit (zOk f.z m) (need noVb (.vrcp f.q t f.z m f.a f.d))
  | 0x17 => flt fun t => limit (zOk f.z m) (need noVb (.vrsq f.q t f.z m f.a f.d))
  | 0x18 => lanes fun t => limit (vcvtFmt fmt) (.ok (.vcvt f.q t f.z m fmt f.a f.d))
  | 0x19 => intLanes fun t => limit (vcvtFmt fmt) (.ok (.vcvtN f.q t f.z m fmt f.a f.d))
  | 0x1A => flt fun t => limit ((fmt == .e4m3 || fmt == .e5m2 || fmt == .px8) && (t != .f32 || f.a.toNat % 2 == 0))
      (need (!f.z && m == 0) (.qscl f.q t fmt f.a f.d))
  | 0x1B => flt fun t => limit ((fmt == .e4m3 || fmt == .e5m2) && (t != .f32 || f.a.toNat % 2 == 0))
      (need (!f.z && m == 0) (.qcvt f.q t fmt f.a f.d))
  | 0x1C => need (f.f7 == 0 && noVb) (.pxpk f.q f.a f.d)
  | 0x1D => need (f.f7 == 0 && noVb) (.pxun f.q f.a f.d)
  | 0x1E => need (f.f7 == 0 && f.b.extractLsb' 2 2 == 0 && f.d == 0) (.nput f.q dir f.a)
  | 0x1F => need (f.f7 == 0 && f.b.extractLsb' 2 2 == 0 && f.a == 0) (.nget f.q dir f.d)
  | 0x20 => .ok (.vld f.q f.ts f.maskM f.seg f.a f.d)
  | 0x21 => .ok (.vst f.q f.ts f.maskM f.seg f.a f.d)
  | 0x22 => limit (f.a.toNat % 2 == 0) (.ok (.vlds f.q f.ts f.maskM f.seg f.a f.d))
  | 0x23 => limit (f.a.toNat % 2 == 0) (.ok (.vsts f.q f.ts f.maskM f.seg f.a f.d))
  | 0x24 => lanes fun t => .ok (.vgth f.q t f.z m f.b f.a f.d)
  | 0x25 => any fun t => need (!f.z) (.vsct f.q t m f.b f.a f.d)
  | 0x28 => need (f.f7 == 0 && noVb && f.a == 0 && f.d.extractLsb' 2 2 == 0) (.mzero f.q acc)
  | 0x29 =>
      if f.d.getLsbD 2 then
        need (f.f7 == 0 && noVb && f.a == 0 && f.d.getLsbD 3 == false) (.mstoStream f.q acc)
      else need (f.maskM == 0 && f.d.getLsbD 3 == false) (.msto f.q f.ts f.seg f.a acc)
  | 0x2A => need (f.low2 == 0 && noVb && f.d.extractLsb' 1 3 == 0) (.mlatch f.q f.ts f.a lat)
  | 0x2B => need (f.f7 == 0 && f.b.extractLsb' 2 2 == 0 && f.a == 0 && f.d.extractLsb' 1 3 == 0) (.mpass f.q dir lat)
  | _ => .error .unassigned

/-- The optional signal of a copy (R45): word1 bit 8 enables it; without it the semaphore and chunk fields say nothing. -/
def copySignal (w1 : Word) : Option Signal :=
  if w1.getLsbD 8 then some { sm := w1.extractLsb' 0 4, chunk := w1.extractLsb' 4 4 } else none

/-- The optional completion message of a copy (R45): word1 bit 13 enables it. -/
def copyMessage (w1 : Word) : Option CopyMsg :=
  if w1.getLsbD 13 then some { mb := w1.extractLsb' 9 4, tag := w1.extractLsb' 14 15 } else none

/-- The fields of an optional part that is not written are zero (R317). -/
def copyPartsOk (w1 : Word) : Bool :=
  (w1.getLsbD 8 || w1.extractLsb' 0 8 == 0) && (w1.getLsbD 13 || (w1.extractLsb' 9 4 == 0 && w1.extractLsb' 14 15 == 0))

/-- A copy instruction (R45, R317): f7[1:0] and the fields of unwritten parts zero; the segment is 1-7. -/
def decodeCopy (f : Fields) (w1 : Word)
    (mk : R4 → BitVec 5 → R4 → R4 → R4 → Option Signal → Option CopyMsg → BitVec 3 → Instr) : Dec :=
  let sg := w1.extractLsb' 29 3
  limit (sg != 0) (need (f.low2 == 0 && copyPartsOk w1) (mk f.q f.ts f.b f.a f.d (copySignal w1) (copyMessage w1) sg))

/-- MMA (R45). -/
def decodeMma (f : Fields) (w1 : Word) : Dec :=
  let acc := f.d.extractLsb' 0 2
  let nb := w1.extractLsb' 5 5
  let tsB := w1.extractLsb' 0 5
  let accum := w1.getLsbD 10
  let passB := w1.getLsbD 11
  let rest := f.d.extractLsb' 2 2 == 0 && w1.extractLsb' 12 20 == 0
  match f.low2.toNat with
  | 0 => need (rest && f.b == 0 && tsB == 0) (.mmaLatch f.q f.ts false f.a acc nb accum passB)
  | 1 => need (rest && f.b == 0 && tsB == 0) (.mmaLatch f.q f.ts true f.a acc nb accum passB)
  | 2 => limit (!passB) (need rest (.mmaLocal f.q f.ts tsB f.b f.a acc nb accum))
  | _ => .error .refused

/-- Class L (R57); `w1` is the second word. -/
def decodeL (f : Fields) (w1 : Word) : Dec :=
  let regOnly := f.f7 == 0 && w1 == 0
  match f.op.toNat with
  | 0x00 => .ok (.movi f.q (w1 ++ (f.f7 ++ f.b ++ f.a)) f.d)
  | 0x01 => code (LdType.ofCode f.size) fun t =>
      limit (w1.toNat % t.bytes == 0) (need (f.rbM == 0) (.ldLong f.q t w1 f.seg f.a f.d))
  | 0x02 => limit (f.size.extractLsb' 2 2 == 0) (limit (w1.toNat % 2 ^ f.size.toNat == 0)
      (need (f.rbM == 0) (.stLong f.q (f.size.extractLsb' 0 2) w1 f.seg f.a f.d)))
  | 0x03 => need (f.f7 == 0 && f.b == 0 && f.a == 0 && f.d == 0) (.jmp f.q w1)
  | 0x04 =>
      let wide := f.size == 3
      limit (f.size == 2 || f.size == 3) (limit (w1.toNat % (if wide then 8 else 4) == 0)
        (.ok (.acas f.q wide w1 f.seg f.rbM f.a f.d)))
  | 0x05 => decodeMma f w1
  | 0x06 => decodeCopy f w1 .cpyg
  | 0x07 => decodeCopy f w1 .cpyb
  | 0x08 => need (f.low2 == 0 && copyPartsOk w1 && w1.extractLsb' 29 3 == 0)
      (.cpyx f.q f.ts f.b f.a f.d (copySignal w1) (copyMessage w1))
  | 0x09 => decodeCopy f w1 .putr
  | 0x0A => decodeCopy f w1 .getr
  | 0x0B => limit (w1.toNat % 32 == 0) (need (f.size == 0 && f.f7.extractLsb' 4 3 == 0)
      (.shld f.q (f.f7.extractLsb' 3 1 ++ f.d) w1 f.seg f.a))
  | 0x0C => limit (w1.toNat % 32 == 0) (need (f.size == 0 && f.f7.extractLsb' 4 3 == 0)
      (.shst f.q (f.f7.extractLsb' 3 1 ++ f.d) w1 f.seg f.a))
  | 0x0D => need (f.size == 0 && f.f7.extractLsb' 4 3 == 0 && f.seg == 0 && f.a == 0 && w1 == 0)
      (.shev f.q (f.f7.extractLsb' 3 1 ++ f.d))
  | 0x0E => need (f.f7.extractLsb' 5 2 == 0 && f.b == 0 && w1.extractLsb' 17 15 == 0)
      (.send f.q (f.f7.getLsbD 4) (f.f7.extractLsb' 0 4) f.a f.d (w1.extractLsb' 0 16) (w1.getLsbD 16))
  | 0x0F => need (f.f7 == 0) (.sendt f.q f.b f.a f.d w1)
  | 0x10 => need (f.f7.extractLsb' 1 6 == 0 && f.b == 0 && w1 == 0) (.spawn f.q (f.f7.getLsbD 0) f.a f.d)
  | 0x11 => need (f.f7.extractLsb' 4 3 == 0 && f.b == 0 && w1 == 0)
      (.saddLong f.q f.a f.d (f.f7.extractLsb' 0 4))
  | 0x12 => need (f.f7 == 0) (.arm f.q f.b f.a f.d w1)
  | 0x13 => limit (f.b.toNat ≤ 14 && f.a.toNat ≤ 12) (need (f.f7.getLsbD 6 == false && w1.extractLsb' 1 31 == 0)
      (.rcall f.q (f.f7.extractLsb' 0 6) f.b f.a f.d (w1.getLsbD 0)))
  | 0x14 => limit (f.b.toNat ≤ 14 && f.a.toNat ≤ 12)
      (need (f.f7.getLsbD 6 == false && w1.getLsbD 0 == false && w1.extractLsb' 2 30 == 0)
      (.rread f.q (f.f7.extractLsb' 0 6) f.b f.a f.d (w1.getLsbD 1)))
  | 0x15 => need (regOnly && f.b == 0) (.rwait f.q f.a f.d)
  | 0x16 => need (regOnly && f.b == 0 && f.a == 0) (.rtrim f.q f.d)
  | _ => .error .unassigned

/-- A prefix word (R50). -/
def decodeP (f : Fields) : Dec :=
  match Rm.ofCode (f.d.extractLsb' 0 3) with
  | some rm =>
    if f.op == 0 && f.q == 0 && f.f7 == 0 && f.b == 0 && f.a.extractLsb' 1 3 == 0 then
      .ok (.pfx (f.a.getLsbD 0) (f.d.getLsbD 3) rm)
    else .error .malformedPrefix
  | none => .error .malformedPrefix

/-- The instruction that a word and the word after it hold, or why they hold none (R41 step 2, R50).
The second word counts only when the length selector is 11 (R38). -/
def decode (w0 w1 : Word) : Dec :=
  let f := cut w0
  match f.ls.toNat with
  | 0 => decodeS f
  | 1 => decodeV f
  | 2 => decodeP f
  | _ => decodeL f w1

/-- Bytes of the instruction whose first word this is (R38). -/
def wordBytes (w0 : Word) : Nat := if w0.extractLsb' 0 2 == 3 then 8 else 4

/-- What the machine executes for a word: its instruction, or the word that is none, under its reason. -/
def decodeInstr (w0 w1 : Word) : Instr :=
  match decode w0 w1 with
  | .ok i => i
  | .error e => .notAnInstruction w0 e

/-! Decoding bytes. -/

/-- A little-endian word (R4). -/
def wordOfBytes (b0 b1 b2 b3 : Byte) : Word := b3 ++ b2 ++ b1 ++ b0

/-- Decoding any byte string: the instruction and the bytes after it, or why there is none. A string too short for
its first word is refused as `noWord1`. -/
def decodeBytes : List Byte → Except BadWord (Instr × List Byte)
  | b0 :: b1 :: b2 :: b3 :: rest =>
    let w0 := wordOfBytes b0 b1 b2 b3
    if wordBytes w0 == 8 then
      match rest with
      | c0 :: c1 :: c2 :: c3 :: rest' =>
        match decode w0 (wordOfBytes c0 c1 c2 c3) with
        | .ok i => .ok (i, rest')
        | .error e => .error e
      | _ => .error .noWord1
    else
      match decode w0 0 with
      | .ok i => .ok (i, rest)
      | .error e => .error e
  | _ => .error .noWord1

/-- The four bytes of a word, lowest address first (R4). -/
def bytesOfWord (w : Word) : List Byte :=
  [w.extractLsb' 0 8, w.extractLsb' 8 8, w.extractLsb' 16 8, w.extractLsb' 24 8]

/-- Instruction read from the numbered bits of an opcode-table row: bits 31-0 are the first word, 63-32 the second. -/
def decodeTableWord (_nbits w : Nat) : Option Instr :=
  match decodeBytes (bytesOfWord (BitVec.ofNat 32 w) ++ bytesOfWord (BitVec.ofNat 32 (w / 2 ^ 32))) with
  | .ok (i, _) => some i
  | .error _ => none

/-! The encoder (chapter 03). -/

/-- Bit of a flag. -/
def bit (b : Bool) : BitVec 1 := BitVec.ofBool b

/-- A class S word. -/
def encS (q : R4) (f7 : BitVec 7) (b a d : R4) (op : BitVec 7) : Fields :=
  { q := q, f7 := f7, b := b, a := a, d := d, op := op, ls := 0 }
/-- A class V word. -/
def encV (q : R4) (f7 : BitVec 7) (b a d : R4) (op : BitVec 7) : Fields :=
  { q := q, f7 := f7, b := b, a := a, d := d, op := op, ls := 1 }
/-- Word0 of a class L instruction. -/
def encL (q : R4) (f7 : BitVec 7) (b a d : R4) (op : BitVec 7) : Fields :=
  { q := q, f7 := f7, b := b, a := a, d := d, op := op, ls := 3 }
/-- S.RRI. -/
def encI (q : R4) (imm : BitVec 11) (a d : R4) (op : BitVec 7) : Fields :=
  encS q (imm.extractLsb' 4 7) (imm.extractLsb' 0 4) a d op
/-- S.M. -/
def encM (q : R4) (disp : Byte) (sg : BitVec 3) (a d : R4) (op : BitVec 7) : Fields :=
  encS q (disp.extractLsb' 1 7) (disp.extractLsb' 0 1 ++ sg) a d op
/-- func7 of ALU3 (R54). -/
def fAlu (u w : Bool) (op : BitVec 5) : BitVec 7 := bit u ++ bit w ++ op
/-- V.RRR. -/
def encR (q : R4) (t : BitVec 3) (z : Bool) (m : BitVec 3) (b a d : R4) (op : BitVec 7) : Fields :=
  encV q (t ++ bit z ++ m) b a d op
/-- V.M. -/
def encVM (q : R4) (ts : BitVec 5) (m sg : BitVec 3) (a d : R4) (op : BitVec 7) : Fields :=
  encV q (ts ++ m.extractLsb' 1 2) (m.extractLsb' 0 1 ++ sg) a d op
/-- L.M. -/
def encLM (q rb size : R4) (sg : BitVec 3) (a d : R4) (op : BitVec 7) : Fields :=
  encL q (rb.extractLsb' 0 4 ++ size.extractLsb' 1 3) (size.extractLsb' 0 1 ++ sg) a d op
/-- Word1 of a copy (R45). -/
def copyWord1 (sig : Option Signal) (msg : Option CopyMsg) (sg : BitVec 3) : Word :=
  let m : BitVec 20 := match msg with
    | some c => c.tag ++ (1 : BitVec 1) ++ c.mb
    | none => 0
  let g : BitVec 9 := match sig with
    | some c => (1 : BitVec 1) ++ c.chunk ++ c.sm
    | none => 0
  sg ++ m ++ g
/-- A copy instruction (R45). -/
def encCopy (q : R4) (ts : BitVec 5) (c b w : R4) (op : BitVec 7) : Fields := encL q (ts ++ (0 : BitVec 2)) c b w op

/-- Fields of word0 and word1 of an instruction; events and words that are no instruction have none (chapter 03). -/
def encodeFields : Instr → Option (Fields × Word)
  | .pfx x s r => some ({ q := 0, f7 := 0, b := 0, a := (0 : BitVec 3) ++ bit x, d := bit s ++ r.code, op := 0, ls := 2 }, 0)
  | .add q w b a d => some (encS q (fAlu false w 0x00) b a d 0x00, 0)
  | .sub q w b a d => some (encS q (fAlu false w 0x01) b a d 0x00, 0)
  | .mul q w b a d => some (encS q (fAlu false w 0x02) b a d 0x00, 0)
  | .mulh q u w b a d => some (encS q (fAlu u w 0x03) b a d 0x00, 0)
  | .div q u w b a d => some (encS q (fAlu u w 0x04) b a d 0x00, 0)
  | .rem q u w b a d => some (encS q (fAlu u w 0x05) b a d 0x00, 0)
  | .and q b a d => some (encS q (fAlu false false 0x06) b a d 0x00, 0)
  | .or q b a d => some (encS q (fAlu false false 0x07) b a d 0x00, 0)
  | .xor q b a d => some (encS q (fAlu false false 0x08) b a d 0x00, 0)
  | .shl q w b a d => some (encS q (fAlu false w 0x09) b a d 0x00, 0)
  | .shr q w b a d => some (encS q (fAlu false w 0x0A) b a d 0x00, 0)
  | .sha q w b a d => some (encS q (fAlu false w 0x0B) b a d 0x00, 0)
  | .rot q w b a d => some (encS q (fAlu false w 0x0C) b a d 0x00, 0)
  | .min q u w b a d => some (encS q (fAlu u w 0x0D) b a d 0x00, 0)
  | .max q u w b a d => some (encS q (fAlu u w 0x0E) b a d 0x00, 0)
  | .sel q b a d => some (encS q (fAlu false false 0x0F) b a d 0x00, 0)
  | .clz q w a d => some (encS q (fAlu false w 0x10) 0 a d 0x00, 0)
  | .popc q w a d => some (encS q (fAlu false w 0x11) 0 a d 0x00, 0)
  | .mad q w b a d => some (encS q (fAlu false w 0x12) b a d 0x00, 0)
  | .mov q a d => some (encS q (fAlu false false 0x13) 0 a d 0x00, 0)
  | .ext q b a d => some (encS q (fAlu false false 0x14) b a d 0x00, 0)
  | .ins q b a d => some (encS q (fAlu false false 0x15) b a d 0x00, 0)
  | .addi q i a d => some (encI q i a d 0x01, 0)
  | .andi q i a d => some (encI q i a d 0x02, 0)
  | .ori q i a d => some (encI q i a d 0x03, 0)
  | .xori q i a d => some (encI q i a d 0x04, 0)
  | .cmpi q c i a p => some (encS q (c.code ++ i.extractLsb' 4 4) (i.extractLsb' 0 4) a p 0x05, 0)
  | .cmp q u c b a p => some (encS q (bit u ++ (0 : BitVec 3) ++ c.code) b a p 0x06, 0)
  | .qand q b a d => some (encS q 0 b a d 0x07, 0)
  | .qor q b a d => some (encS q 1 b a d 0x07, 0)
  | .qxor q b a d => some (encS q 2 b a d 0x07, 0)
  | .qnot q a d => some (encS q 3 0 a d 0x07, 0)
  | .ldI8 q i sg a d => some (encM q i sg a d 0x08, 0)
  | .ldI16 q i sg a d => some (encM q i sg a d 0x09, 0)
  | .ldI32 q i sg a d => some (encM q i sg a d 0x0A, 0)
  | .ldI64 q i sg a d => some (encM q i sg a d 0x0B, 0)
  | .ldN8 q i sg a d => some (encM q i sg a d 0x0C, 0)
  | .ldN16 q i sg a d => some (encM q i sg a d 0x0D, 0)
  | .ldN32 q i sg a d => some (encM q i sg a d 0x0E, 0)
  | .ldLong q t i sg a d => some (encLM q 0 t.code sg a d 0x01, i)
  | .st q z i sg a d => some (encM q i sg a d ((0x04 : BitVec 5) ++ z), 0)
  | .stLong q z i sg a d => some (encLM q 0 ((0 : BitVec 2) ++ z) sg a d 0x02, i)
  | .lrw q i sg a d => some (encM q i sg a d 0x14, 0)
  | .sch q i sg a d => some (encM q i sg a d 0x15, 0)
  | .rrel q i sg a => some (encM q i sg a 0 0x16, 0)
  | .aadd q i sg a d => some (encM q i sg a d 0x18, 0)
  | .aand q i sg a d => some (encM q i sg a d 0x19, 0)
  | .aor q i sg a d => some (encM q i sg a d 0x1A, 0)
  | .axor q i sg a d => some (encM q i sg a d 0x1B, 0)
  | .amin q i sg a d => some (encM q i sg a d 0x1C, 0)
  | .amax q i sg a d => some (encM q i sg a d 0x1D, 0)
  | .axch q i sg a d => some (encM q i sg a d 0x1E, 0)
  | .acas q wide i sg b a d => some (encLM q b (if wide then 3 else 2) sg a d 0x04, i)
  | .br q i => some (encS q (i.extractLsb' 12 7) (i.extractLsb' 8 4) (i.extractLsb' 4 4) (i.extractLsb' 0 4) 0x20, 0)
  | .call q i => some (encS q (i.extractLsb' 12 7) (i.extractLsb' 8 4) (i.extractLsb' 4 4) (i.extractLsb' 0 4) 0x21, 0)
  | .jmpr q a => some (encS q 0 0 a 0 0x22, 0)
  | .jmp q i => some (encL q 0 0 0 0 0x03, i)
  | .ret q => some (encS q 0 0 0 0 0x23, 0)
  | .loop q i c => some (encS q (i.extractLsb' 8 7) (i.extractLsb' 4 4) (i.extractLsb' 0 4) c 0x24, 0)
  | .rpt q v c n => some (encS q ((0 : BitVec 4) ++ v) (c.extractLsb' 4 4) (c.extractLsb' 0 4) n 0x25, 0)
  | .nop q => some (encS q 0 0 0 0 0x26, 0)
  | .trap q c => some (encI q c 0 0 0x27, 0)
  | .tret q => some (encS q 0 0 0 0 0x28, 0)
  | .yield q => some (encS q 0 0 0 0 0x29, 0)
  | .quit q => some (encS q 0 0 0 0 0x2A, 0)
  | .vote q k a d => some (encS q ((0 : BitVec 6) ++ bit k) 0 a d 0x2B, 0)
  | .getc q n d => some (encI q n 0 d 0x2C, 0)
  | .setc q n a => some (encI q n a 0 0x2D, 0)
  | .sets q i a sn => some (encI q i a ((0 : BitVec 1) ++ sn) 0x2E, 0)
  | .recv q m p => some (encS q (m.extractLsb' 9 7) (m.extractLsb' 5 4) (m.extractLsb' 1 4) (m.extractLsb' 0 1 ++ p) 0x30, 0)
  | .swait q a j => some (encS q 0 0 a j 0x31, 0)
  | .sadd q a j => some (encS q 0 0 a j 0x32, 0)
  | .sset q a j => some (encS q 0 0 a j 0x33, 0)
  | .saddLong q b a j => some (encL q ((0 : BitVec 3) ++ j) 0 b a 0x11, 0)
  | .bara q a n => some (encS q 0 0 a n 0x34, 0)
  | .barw q a n => some (encS q 0 0 a n 0x35, 0)
  | .fence q a => some (encS q 0 0 a 0 0x36, 0)
  | .time q d => some (encS q 0 0 0 d 0x37, 0)
  | .pop q w d => some (encS q 0 ((0 : BitVec 1) ++ w) 0 d 0x38, 0)
  | .push q w a => some (encS q 0 ((0 : BitVec 2) ++ w) a 0 0x39, 0)
  | .atch q a w => some (encS q 0 0 a w 0x3B, 0)
  | .dtch q f w => some (encS q 0 ((0 : BitVec 3) ++ bit f) 0 w 0x3C, 0)
  | .hovr q f b a w => some (encS q ((0 : BitVec 6) ++ bit f) b a w 0x3D, 0)
  | .hovrNotice q mb f b a w => some (encS q ((0 : BitVec 1) ++ mb ++ (1 : BitVec 1) ++ bit f) b a w 0x3D, 0)
  | .bqry q w d => some (encS q 0 w 0 d 0x3E, 0)
  | .wake q a => some (encS q 0 0 a 0 0x3F, 0)
  | .tlbi q sc a => some (encS q 0 ((0 : BitVec 2) ++ sc.code) a 0 0x40, 0)
  | .disarm q a => some (encS q 0 0 a 0 0x41, 0)
  | .fadd q f b a d => some (encS q (f.code ++ (0 : BitVec 5)) b a d 0x48, 0)
  | .fsub q f b a d => some (encS q (f.code ++ (1 : BitVec 5)) b a d 0x48, 0)
  | .fmul q f b a d => some (encS q (f.code ++ (2 : BitVec 5)) b a d 0x48, 0)
  | .fdiv q f b a d => some (encS q (f.code ++ (3 : BitVec 5)) b a d 0x48, 0)
  | .fsqrt q f a d => some (encS q (f.code ++ (4 : BitVec 5)) 0 a d 0x48, 0)
  | .fmin q f b a d => some (encS q (f.code ++ (5 : BitVec 5)) b a d 0x48, 0)
  | .fmax q f b a d => some (encS q (f.code ++ (6 : BitVec 5)) b a d 0x48, 0)
  | .fma q f b a d => some (encS q (f.code ++ (7 : BitVec 5)) b a d 0x48, 0)
  | .fclass q f a d => some (encS q (f.code ++ (8 : BitVec 5)) 0 a d 0x48, 0)
  | .fcmp q f c b a p => some (encS q (f.code ++ (0 : BitVec 2) ++ c.code) b a p 0x49, 0)
  | .cvt q src dst a d => some (encS q ((0 : BitVec 3) ++ src.code) dst.code a d 0x4A, 0)
  | .vadd q t z m b a d => some (encR q t.code z m b a d 0x00, 0)
  | .vsub q t z m b a d => some (encR q t.code z m b a d 0x01, 0)
  | .vmul q t z m b a d => some (encR q t.code z m b a d 0x02, 0)
  | .vfma q t z m b a d => some (encR q t.code z m b a d 0x03, 0)
  | .vmin q t z m b a d => some (encR q t.code z m b a d 0x04, 0)
  | .vmax q t z m b a d => some (encR q t.code z m b a d 0x05, 0)
  | .vminN q t z m b a d => some (encR q t.code z m b a d 0x06, 0)
  | .vmaxN q t z m b a d => some (encR q t.code z m b a d 0x07, 0)
  | .vand q t z m b a d => some (encR q t.code z m b a d 0x08, 0)
  | .vor q t z m b a d => some (encR q t.code z m b a d 0x09, 0)
  | .vxor q t z m b a d => some (encR q t.code z m b a d 0x0A, 0)
  | .vshl q t z m b a d => some (encR q t.code z m b a d 0x0B, 0)
  | .vshrLogical q t z m b a d => some (encR q t.code z m b a d 0x0C, 0)
  | .vshrArithmetic q t z m b a d => some (encR q t.code z m b a d 0x0D, 0)
  | .vcmp q t c b a md => some (encR q t.code false c.code b a ((0 : BitVec 1) ++ md) 0x0E, 0)
  | .vcmpN q t c b a md => some (encR q t.code false c.code b a ((0 : BitVec 1) ++ md) 0x0F, 0)
  | .vsel q t m b a d => some (encR q t.code false m b a d 0x10, 0)
  | .vmov q t z m a d => some (encR q t.code z m 0 a d 0x11, 0)
  | .vbcst q t z m a d => some (encR q t.code z m 0 a d 0x12, 0)
  | .vshuf q t z m b a d => some (encR q t.code z m b a d 0x13, 0)
  | .vred q t m o a d => some (encR q t.code false m ((0 : BitVec 2) ++ o.code) a d 0x14, 0)
  | .vexp2 q t z m a d => some (encR q t.code z m 0 a d 0x15, 0)
  | .vrcp q t z m a d => some (encR q t.code z m 0 a d 0x16, 0)
  | .vrsq q t z m a d => some (encR q t.code z m 0 a d 0x17, 0)
  | .vcvt q t z m f a d => some (encR q t.code z m f.code a d 0x18, 0)
  | .vcvtN q t z m f a d => some (encR q t.code z m f.code a d 0x19, 0)
  | .qscl q t f a d => some (encR q t.code false 0 f.code a d 0x1A, 0)
  | .qcvt q t f a d => some (encR q t.code false 0 f.code a d 0x1B, 0)
  | .pxpk q a d => some (encV q 0 0 a d 0x1C, 0)
  | .pxun q a d => some (encV q 0 0 a d 0x1D, 0)
  | .nput q r a => some (encV q 0 ((0 : BitVec 2) ++ r.code) a 0 0x1E, 0)
  | .nget q r d => some (encV q 0 ((0 : BitVec 2) ++ r.code) 0 d 0x1F, 0)
  | .vld q i m sg a d => some (encVM q i m sg a d 0x20, 0)
  | .vst q i m sg a d => some (encVM q i m sg a d 0x21, 0)
  | .vlds q k m sg a d => some (encVM q k m sg a d 0x22, 0)
  | .vsts q k m sg a d => some (encVM q k m sg a d 0x23, 0)
  | .vgth q t z m b a d => some (encR q t.code z m b a d 0x24, 0)
  | .vsct q t m b a d => some (encR q t.code false m b a d 0x25, 0)
  | .mzero q n => some (encV q 0 0 0 ((0 : BitVec 2) ++ n) 0x28, 0)
  | .msto q k sg a n => some (encVM q k 0 sg a ((0 : BitVec 2) ++ n) 0x29, 0)
  | .mstoStream q n => some (encV q 0 0 0 ((1 : BitVec 2) ++ n) 0x29, 0)
  | .mlatch q k a x => some (encVM q k 0 0 a ((0 : BitVec 3) ++ bit x) 0x2A, 0)
  | .mpass q r x => some (encV q 0 ((0 : BitVec 2) ++ r.code) 0 ((0 : BitVec 3) ++ bit x) 0x2B, 0)
  | .movi q i d =>
      some (encL q (i.extractLsb' 8 7) (i.extractLsb' 4 4) (i.extractLsb' 0 4) d 0x00, i.extractLsb' 15 32)
  | .mmaLatch q ts lat a n nb accum passB =>
      some (encL q (ts ++ (0 : BitVec 1) ++ bit lat) 0 a ((0 : BitVec 2) ++ n) 0x05,
        (0 : BitVec 20) ++ bit passB ++ bit accum ++ nb ++ (0 : BitVec 5))
  | .mmaLocal q tsA tsB b a n nb accum =>
      some (encL q (tsA ++ (2 : BitVec 2)) b a ((0 : BitVec 2) ++ n) 0x05,
        (0 : BitVec 21) ++ bit accum ++ nb ++ tsB)
  | .cpyg q ts c b w sig msg sg => some (encCopy q ts c b w 0x06, copyWord1 sig msg sg)
  | .cpyb q ts c b w sig msg sg => some (encCopy q ts c b w 0x07, copyWord1 sig msg sg)
  | .cpyx q ts c b w sig msg => some (encCopy q ts c b w 0x08, copyWord1 sig msg 0)
  | .putr q ts c b w sig msg sg => some (encCopy q ts c b w 0x09, copyWord1 sig msg sg)
  | .getr q ts c b w sig msg sg => some (encCopy q ts c b w 0x0A, copyWord1 sig msg sg)
  | .shld q ts i sg a => some (encLM q ((0 : BitVec 3) ++ ts.extractLsb' 4 1) 0 sg a (ts.extractLsb' 0 4) 0x0B, i)
  | .shst q ts i sg a => some (encLM q ((0 : BitVec 3) ++ ts.extractLsb' 4 1) 0 sg a (ts.extractLsb' 0 4) 0x0C, i)
  | .shev q ts => some (encLM q ((0 : BitVec 3) ++ ts.extractLsb' 4 1) 0 0 0 (ts.extractLsb' 0 4) 0x0D, 0)
  | .send q eos mb b a tag cw =>
      some (encL q ((0 : BitVec 2) ++ bit eos ++ mb) 0 b a 0x0E, (0 : BitVec 15) ++ bit cw ++ tag)
  | .sendt q c b a tag => some (encL q 0 c b a 0x0F, tag)
  | .spawn q steal b a => some (encL q ((0 : BitVec 6) ++ bit steal) 0 b a 0x10, 0)
  | .arm q c b a tag => some (encL q 0 c b a 0x12, tag)
  | .rcall q m c b a wait => some (encL q ((0 : BitVec 1) ++ m) c b a 0x13, (0 : BitVec 31) ++ bit wait)
  | .rread q m c b a lin =>
      some (encL q ((0 : BitVec 1) ++ m) c b a 0x14, (0 : BitVec 30) ++ bit lin ++ (0 : BitVec 1))
  | .rwait q b a => some (encL q 0 0 b a 0x15, 0)
  | .rtrim q a => some (encL q 0 0 0 a 0x16, 0)
  | _ => none

/-- The words of an instruction: one for classes S, V and P, two for class L; none for an event (R38, R39). -/
def encode (i : Instr) : List Word :=
  match encodeFields i with
  | some (f, w1) => if f.ls == 3 then [f.pack, w1] else [f.pack]
  | none => []

/-- The bytes of an instruction, as the part stores them (R4). -/
def encodeBytes (i : Instr) : List Byte := (encode i).flatMap bytesOfWord

end Sys2Proof
end

