-- ==== Sys2Proof/Config.lean ====
section
/-! DEFINITION. What an implementation fixes and the values the spec leaves open. Each constant is opaque: nothing can
evaluate it, so a statement about it holds whatever it is (logs 6, 7, 10, 14, 15, 25, 48, 59, 61, 76). -/
namespace Sys2Proof.Config

/-- A free byte, applied to a fresh number (DESIGN CHOICE, log 25): bytes that carry no information (R145). -/
opaque freeByte : Nat → Byte
/-- A free number, applied to a fresh number (DESIGN CHOICE, log 25): durations, replacement choices, arrival times. -/
opaque freeNat : Nat → Nat
/-- Bits that fail in a memory (UNVERIFIED, log 61; R120, R144), by draw: a byte of the unit that is struck, and how many. -/
opaque strike : Nat → Option (Nat × Nat)
/-- Bits in error of a DRAM line that its controller's code corrects (UNVERIFIED, log 61; R144). -/
opaque dramCorrects : Nat
/-- Whether the confirmation of a remote atomic is lost inside the part (UNVERIFIED, log 59; R211), by draw. -/
opaque confirmationLost : Nat → Bool
/-- Bytes of a context image (UNVERIFIED, log 15; R256), by draw: neither its format nor its length is given. -/
opaque contextImage : Nat → List Byte
/-- Where a log is allocated in DRAM, in units of 64 KiB (DESIGN CHOICE, log 76; R298), by draw. -/
opaque logArea : Nat → Nat
/-- The boot ROM image (UNVERIFIED, log 7; R280, R289). -/
opaque bootRom : Nat → Byte
/-- Core-map bits set by fuses at test, keyed by die x 32 + row (UNVERIFIED, log 7; R16). -/
opaque fuseDead : List (Nat × Word)
/-- The binding of a key slot by the security block: its owner, if any (DESIGN CHOICE, log 48; R145). -/
opaque keyOwner : Nat → Option (BitVec 16)
/-- The round trip to a socket, halved, as a boot measures it (DESIGN CHOICE, log 6; R278), by draw and socket. -/
opaque roundTrip : Nat → Nat → BitVec 16
/-- Whether a first stage verifies under SLH-DSA-SHA2-192s against the fused key hash (log 14; R280). -/
opaque verifyFirstStage : List Byte → List Byte → Bool
/-- SHA-256 (log 14; R280). -/
opaque sha256 : List Byte → BitVec 256
/-- The SLH-DSA-SHA2-128f signature of the device key (log 14; R281, R283). -/
opaque sign : List Byte → List Byte
/-- A payload sealed with AES-256-GCM (log 14; R274), by the part's port, the number of its session key, the packet count, the
header and the payload. -/
opaque gcmPayload : Nat → Nat → Nat → List Byte → List Byte → List Byte
/-- The 16-byte tag of a sealed packet (log 14; R274), by the same. -/
opaque gcmTag : Nat → Nat → Nat → List Byte → List Byte → BitVec 128
/-- Whether an SPDM request of a fabric session succeeds (log 14; R281), by code, request and draw. -/
opaque spdmGranted : Nat → List Byte → Nat → Bool
/-- Bytes of an SPDM 1.3 response, by request code, request and draw (log 14; R281). -/
opaque spdmResponse : Nat → List Byte → Nat → List Byte

end Sys2Proof.Config
end

