-- ==== Sys2Proof/Machine/Sparse.lean ====
section
/-! DEFINITION. Sparse tables: a list of (key, value) pairs with rising keys, no value equal to what an unlisted key
reads as. Registers, slots, sites, banks and memory are all held this way, so equal contents are equal data. -/
namespace Sys2Proof.Machine

/-- A sparse table. -/
abbrev Table (α : Type) := List (Nat × α)

/-- The value at a key; an unlisted key reads as `d`. -/
def tget {α : Type} (d : α) : Table α → Nat → α
  | [], _ => d
  | (k, v) :: t, n => if n = k then v else tget d t n

/-- Inserting a listed value at its place. -/
def tput {α : Type} : Table α → Nat → α → Table α
  | [], n, v => [(n, v)]
  | (k, u) :: t, n, v => if n < k then (n, v) :: (k, u) :: t else if n = k then (k, v) :: t else (k, u) :: tput t n v

/-- Removing a key. -/
def tdel {α : Type} : Table α → Nat → Table α
  | [], _ => []
  | (k, u) :: t, n => if n = k then tdel t n else (k, u) :: tdel t n

/-- Writing a key: writing what an unlisted key reads as removes the entry. -/
def tset {α : Type} [DecidableEq α] (d : α) (t : Table α) (n : Nat) (v : α) : Table α :=
  if v = d then tdel t n else tput t n v

/-- Keys all lie above a bound, rise, and no entry equals the default. -/
def twfFrom {α : Type} [DecidableEq α] (d : α) : Nat → Table α → Bool
  | _, [] => true
  | lo, (k, v) :: t => decide (lo ≤ k) && decide (v ≠ d) && twfFrom d (k + 1) t

/-- The canonical form. -/
def twf {α : Type} [DecidableEq α] (d : α) (t : Table α) : Bool := twfFrom d 0 t

end Sys2Proof.Machine
end

