-- ==== Sys2Proof/Machine/State.lean ====
section
/-! DEFINITION. The state of the part, as plain data: slots, sites, banks, memory, dies, the I/O die and the networks.
Tables are sparse (Machine/Sparse.lean); a key's meaning is said at its field. Keys of places: mesh core c is c,
control core n of socket s is 8192 + 8 s + n, the carousel of die d is 16384 + d; slot k of a place is 8 x place + k. -/
namespace Sys2Proof.Machine

/-- Key of a place. -/
def placeKey : Place → Nat
  | .mesh c => c
  | .ctl s n => 8192 + 8 * s + n
  | .carousel d => 16384 + d

/-- Key of a slot. -/
def slotKey (r : SlotRef) : Nat := 8 * placeKey r.place + r.k

/-! Slots (R68, R70, R71). -/

/-- A pending prefix word and its address (R50, R52). -/
structure Pre where
  addr : BitVec 16
  rlx : Bool
  sat : Bool
  rm : Rm
  deriving DecidableEq, Repr

/-- Kinds of access (R130, R140). -/
inductive Acc where
  | load | store | atomic | fetch | copyRead | copyWrite
  deriving DecidableEq, Repr

/-- Kinds of translation fault (R140): the codes of PFQH.KIND. -/
inductive FaultKind where
  | seg | miss | rights | dupw | noroot | poison | remote | link
  deriving DecidableEq, Repr

/-- Why a slot is parked (R68): one constructor for each cause of the table, with what ends it. -/
inductive Park where
  /-- A reply of a remote device (request id). -/
  | remote (id : Nat)
  /-- Window w is empty, claimed or in LAND (R103). -/
  | window (w : Nat)
  /-- A hand-over from window w of a core is under way (R112, R115). -/
  | handing (core w : Nat)
  /-- A TLB miss under way (R139). -/
  | tlb (va : Nat) (acc : Acc)
  /-- A reported translation fault; only WAKE ends it (R139, R141). -/
  | fault (va : Nat) (acc : Acc) (kind : FaultKind)
  /-- A page with MIG = 1; the migration wakes it (R139, R143). -/
  | migrating (va : Nat) (acc : Acc)
  /-- Eight relaxed accesses outstanding (R234). -/
  | relaxedFull
  /-- A register that a relaxed load has yet to write (R237). -/
  | scoreboard
  /-- Earlier stores to the bytes have to be performed, or to leave the egress queue (R234, R238). -/
  | egress (key n : Nat)
  /-- The word's reservation queue is full (R207). -/
  | lrwRoom (key : Nat)
  /-- In the reservation queue of the word (R207, R209). -/
  | reservation (key : Nat)
  /-- A matrix command to complete (R180). -/
  | matrix (id : Nat)
  | w5Full | w4Full
  /-- RECV of mailboxes into a pair (R199). -/
  | recv (mask : BitVec 16) (p : BitVec 3)
  | swait (j : Nat) (threshold : Word)
  | barw (id : Nat)
  /-- Earlier relaxed accesses, as far as a scope asks: 0 die, 1 package, 2 system (R214, R239). -/
  | drainRelaxed (scope : Nat)
  /-- POP of a queue into a register; PUSH of a value (R206). -/
  | pop (w : Nat) (d : R4) | push (w : Nat) (v : Dword)
  | nget (dir : Dir) | nput (dir : Dir)
  | sendFull
  /-- SENDT to a device waits for the slot's earlier one to it (R203, R277). -/
  | sendHeld (dev : Nat)
  /-- SENDT waits for the I/O die (R359). -/
  | sendt
  /-- HOVR from window w waits at the site controller (R112): target operand, mode left behind, notice. -/
  | hovr (w : Nat) (t : Dword) (fault : Bool) (notice : Option (Nat × Dword))
  | callFrame | retFrame
  | time
  /-- VOTE waits for the final value of its vote, for its predicate (R90). -/
  | vote (id : Nat) (d : R4)
  /-- RCALL waits for the sequencer (R224): object, method and arguments; an evicted call of the slot's table (R228). -/
  | append (obj method : Nat) (args : List Dword)
  | evict (obj pos : Nat)
  /-- A position to be applied on the slot's die (R224-R226). -/
  | applied (obj pos : Nat)
  /-- The tail fetch of RREAD.lin (R225). -/
  | tail (obj : Nat)
  /-- A read in the carousel's FIFO, or room in it (R225). -/
  | read (die obj : Nat) | readRoom (die obj : Nat)
  /-- A resync of these dies and a trim (R227). -/
  | trim (obj : Nat) (dies : List Nat)
  | spawnFull (die : Nat)
  | quitDrain | yield
  /-- DISARM waits for the release of a turnstile (R252). -/
  | disarm (n : Nat)
  /-- TLBI waits for the dies (R136). -/
  | tlbi (id : Nat)
  | emptyStream
  deriving DecidableEq, Repr

/-- Status of a slot: free, ready to issue, parked, or benched (R65, R68, R95, R263). -/
inductive Status where
  | free | ready | parked (p : Park) | benched
  deriving DecidableEq, Repr

/-- What an instruction that parked has already got, for its next issue. -/
inductive Stage where
  | fresh
  /-- The word granted to an LRW, the grant of an atomic, the time, a final vote (R207, R209, R279, R90). -/
  | granted (word : Dword)
  /-- WAKE with FAIL ended the fault park, or the walk raises SEGV (R141, R135); of an access, or of a fetch. -/
  | failed (va : Nat) | fetchFailed (va : Nat)
  /-- RCALL appended at a position (R224). -/
  | appended (pos : Nat)
  /-- The tail that RREAD.lin fetched (R225). -/
  | tailIs (pos : Nat)
  /-- A read ended: trap word, or the two results (R225). -/
  | readDone (status r0 r1 : Dword)
  /-- The object was destroyed while the call waited (R232); the position it had been given, or 0. -/
  | noObject (pos : Nat)
  /-- A resync and trim ended (R227). -/
  | trimmed (ok : Bool)
  /-- A DISARM or TLBI ended; q15 of DISARM (R252, R136). -/
  | acked (q15 : Bool)
  /-- The interposer loses the packets of the next unmarked access (R265, log 40): its request, or its reply. -/
  | lost (reply : Bool)
  deriving DecidableEq, Repr

/-- Destination of a load: the register and how the bytes enter it (R333, R378). A vector takes the bytes that the byte
mask names and `base` elsewhere. -/
inductive LoadDest where
  | g (d : R4) (bytes : Nat) (signed : Bool)
  | v (d : R4) (base : Vec) (mask : Dword)
  /-- SHLD into a shape slot of the core (R154). -/
  | shape (ts : Nat)
  | none
  deriving DecidableEq, Repr

/-- A run of bytes of an access: `n` bytes at memory key `key` (Machine/Ops.lean) are bytes pos .. of the operand.
`tag` is the key slot and line under which DRAM bytes are read or written (R145), 0 elsewhere. -/
structure Piece where
  pos : Nat
  key : Nat
  n : Nat
  tag : Nat
  deriving DecidableEq, Repr

/-- An outstanding relaxed access (R234, R237). -/
structure Relaxed where
  id : Nat
  tepc : BitVec 16
  va : Dword
  store : Bool
  dest : LoadDest
  pieces : List Piece
  data : List Byte
  /-- The request has arrived where it is performed (Wq for a DRAM store). -/
  arrived : Bool
  /-- Remote requests that carry it and have no reply yet; it completes with the last (R264). -/
  away : Nat
  /-- It counts as a request of the port when it reaches DRAM (R138). -/
  port : Bool
  /-- One of its remote requests was refused or lost (R264, R265). -/
  failed : Bool := false
  /-- Each of its pieces is a store of its own when it meets poison (R377). -/
  each : Bool := false
  deriving DecidableEq, Repr

/-- A pending asynchronous fault (R261) of an access or message; names rise in issue order, oldest first in the list. -/
structure AsyncFault where
  id : Nat
  tepc : BitVec 16
  cause : Nat
  taddr : Dword
  reason : Nat
  deriving DecidableEq, Repr

/-- Counts of one barrier id of a slot (R212, R311): arrivals made, phases completed, open rectangle. -/
structure Bar where
  a : Nat := 0
  f : Nat := 0
  rect : Word := 0
  deriving DecidableEq, Repr

/-- A reservation held or awaited (R207, R208), for an LRW or for an atomic, on the bytes its address named when it came. -/
structure Resv where
  key : Nat
  held : Bool
  atomic : Bool
  piece : Piece
  deriving DecidableEq, Repr

/-- One instruction of a repeat frame with its prefix (R59, R62). -/
structure FrameWord where
  addr : BitVec 16
  pre : Option Pre
  ins : Instr
  deriving DecidableEq, Repr

/-- The repeat sequencer (R62): the frame, how many of its words are still to come (streamed mode), the repetition and
the word within it. -/
structure Rpt where
  words : List FrameWord
  missing : Nat
  count : Nat
  vstep : Nat
  j : Nat
  idx : Nat
  deriving DecidableEq, Repr

/-- What a lead decided for a branch word (R81). -/
structure Decision where
  taken : Bool
  target : BitVec 16
  deriving DecidableEq, Repr

/-- A word of a stream, or the marker that stands in place of one beyond the image (R78, R83). -/
structure StreamWord where
  off : BitVec 16
  w : Word
  marker : Bool := false
  dec : Option Decision := none
  /-- VOTE's name and value, as the word carries them east (R90). -/
  vote : Option (Nat × Bool) := none
  /-- The address whose fetch failed: the lead that reaches the word raises SEGV (R135, R141). -/
  fail : Option Nat := none
  deriving DecidableEq, Repr

/-- The method context of a carousel slot (R219, R220). -/
structure Method where
  obj : Nat
  pos : Nat
  ro : Bool
  left : Nat
  wbuf : List Host.Cell
  /-- Requester of a read. -/
  caller : Option SlotRef
  /-- Method number and arguments of a read (R225). -/
  num : Nat := 0
  args : List Dword := []
  deriving DecidableEq, Repr

/-- A thread slot. -/
structure Slot where
  status : Status := .free
  /-- When the slot parked for the instruction it is issuing; 0 when it has not (R200, R206). -/
  since : Nat := 0
  stage : Stage := .fresh
  pc : BitVec 16 := 0
  pre : Option Pre := none
  g : Table Dword := []
  v : Table Vec := []
  m : Table Dword := []
  q : BitVec 16 := 0
  segs : Table (BitVec 128) := []
  /-- Callers' g8-g15 still resident, newest first; frames spilled; call depth (R75). -/
  frames : List (List Dword) := []
  spilled : Nat := 0
  depth : Nat := 0
  streamed : Bool := false
  spawned : Bool := false
  owner : BitVec 16 := 0
  rect : Word := 0
  acct : Byte := 0
  fmta : R4 := 11
  fmtb : R4 := 11
  fmtc : R4 := 9
  scla : BitVec 20 := 0
  sclb : BitVec 20 := 0
  srg : BitVec 3 := 0
  prom : BitVec 6 := 1
  rnd : BitVec 2 := 0
  flags : BitVec 6 := 0
  hstat : BitVec 3 := 0
  fprm : Dword := 0
  tvec : BitVec 16 := 0
  tcause : Byte := 0
  taddr : Dword := 0
  tepc : BitVec 16 := 0
  tinfo : Dword := 0
  ten : BitVec 7 := 0
  wsp : BitVec 16 := 0
  wlim : BitVec 16 := 0
  cfs : BitVec 3 := 0
  cfb : Dword := 0
  tcfs : BitVec 3 := 0
  tcfb : Dword := 0
  rpt : Option Rpt := none
  /-- Far words of the instruction being fetched, by their offset (R290). -/
  far : List (Dword × Word) := []
  relaxed : List Relaxed := []
  faults : List AsyncFault := []
  resv : Option Resv := none
  bars : Table Bar := []
  calls : List (Nat × Nat) := []
  lastTime : Dword := 0
  /-- Neighbour latches by direction code, and entries under way to them (R85). -/
  latch : Table (List Vec) := []
  coming : Table (List Vec) := []
  buf : List StreamWord := []
  out : List StreamWord := []
  /-- Units of a repeat frame still to execute before its words go east, and the words held for it (R354). -/
  hold : Nat := 0
  held : List StreamWord := []
  method : Option Method := none
  deriving DecidableEq, Repr

/-! Sites: what the eight slots of a core share (R70). -/

/-- An attach-table entry (R102). -/
structure Entry where
  bank : Nat := 0
  att : Bool := false
  clm : Bool := false
  rd : Bool := false
  wr : Bool := false
  fault : Bool := false
  land : Bool := false
  rsn : BitVec 3 := 0
  owner : BitVec 16 := 0
  gen : BitVec 16 := 0
  deriving DecidableEq, Repr

/-- A semaphore (R204). -/
structure Sem where
  count : Word := 0
  ovf : Bool := false
  deriving DecidableEq, Repr

/-- Kinds of a tile (R179). -/
inductive TileKind where
  | zero | f48 | i48 | f32 | bit
  deriving DecidableEq, Repr

/-- State of a latch buffer (R179). -/
inductive LatchState where
  | empty | filling | full
  deriving DecidableEq, Repr

/-- A latch buffer: descriptor, element codes in order (n, k) and scale bytes in order (n, block) (R179, R189). -/
structure Latch where
  st : LatchState := .empty
  fmt : R4 := 0
  k : Nat := 0
  scaled : Bool := false
  data : List Nat := []
  scales : List Nat := []
  deriving DecidableEq, Repr

/-- What an MMA samples at issue (R182). -/
structure MmaCfg where
  fmta : R4
  fmtb : R4
  scla : Nat
  sclb : Nat
  srg : Nat
  prom : Nat
  mode : Nat
  deriving DecidableEq, Repr

/-- Source of B (R181): a latch buffer, or local memory with its shape record. -/
inductive BSource where
  | lat (x : Bool) | mem (addr : Nat) (shape : BitVec 256)
  deriving DecidableEq, Repr

/-- A command of w5 (R180). -/
inductive MatrixCmd where
  | mma (acc : Nat) (addrA : Nat) (shapeA : BitVec 256) (b : BSource) (nb : Nat) (accum passB : Bool) (cfg : MmaCfg)
  | mzero (acc : Nat)
  | mstoMem (acc : Nat) (seg : BitVec 128) (s0 : Bool) (addr : Dword) (shape : BitVec 256) (fmtc : R4) (mode : Nat)
  | mstoStream (acc : Nat) (fmtc : R4) (mode : Nat)
  | mlatch (x : Bool) (addr : Nat) (shape : BitVec 256) (sclb : Nat)
  | mpass (x : Bool) (dir : Dir)
  deriving DecidableEq, Repr

/-- A bank that leaves a window while a queued command has still to reach it there (R195): its window, bank and rights. -/
structure HeldBank where
  w : Nat
  bank : Nat
  rd : Bool
  wr : Bool
  deriving DecidableEq, Repr

/-- A queued matrix command: its name, issuer, the command, the banks whose drains wait for it (R195), the entries or rows an MSTO
has already stored, whether a row of it is out at another device (R194), whether an MMA's sums are done, with their flags and forced
promotions, which merge at its completion (R162), and whether its pass is under way. -/
structure Queued where
  id : Nat
  slot : SlotRef
  cmd : MatrixCmd
  held : List HeldBank := []
  pushed : Nat := 0
  asked : Bool := false
  summed : Bool := false
  flags : BitVec 6 := 0
  forced : Nat := 0
  passing : Bool := false
  deriving DecidableEq, Repr

/-- A message in a core's outbound queue (R198); its name is that of its entry in `State.sends`. -/
structure OutMsg where
  id : Nat
  dst : Nat
  mb : Nat
  msg : Message
  cw : Bool
  owner : Nat
  deriving DecidableEq, Repr

/-- A revocation under way (R118, R119): the trapping slot, its cause, and where the records go. -/
structure Revoking where
  slot : SlotRef
  tcause : Nat
  origin : Nat
  owner : Nat
  deriving DecidableEq, Repr

/-- The record of a slot that benched in this rotation: the slot, and the core, owner and message it is for (R263, R266). -/
structure BenchRec where
  k : Nat
  origin : Nat
  owner : Nat
  msg : Message
  deriving DecidableEq, Repr

/-- An arrival at a barrier that is counted and whose phase is open (R212, R349): slot, barrier id, rectangle, and whether the
context that made it still runs in the slot. -/
structure Arrived where
  k : Nat
  id : Nat
  rect : Word
  live : Bool
  deriving DecidableEq, Repr

/-- What the slots of a core share. -/
structure Site where
  launch : Option Nat := none
  /-- The revocation while the banks drain, and the mark that the core was revoked (R118). -/
  revoking : Option Revoking := none
  revoked : Bool := false
  w : Table (List Dword) := []
  w4 : List Nat := []
  w5 : List Queued := []
  attach : Table Entry := []
  ts : Table (Option (BitVec 256)) := []
  /-- Records that changed while slots of the core were at an instruction under way, which go on with the old one (R154): shape slot,
  time of the change, old record, oldest first. -/
  oldTs : List (Nat × Nat × Option (BitVec 256)) := []
  sm : Table Sem := []
  mb : Table (List Message) := []
  /-- Messages waiting in the network for a full mailbox (R201). -/
  mbWait : Table (List Message) := []
  accKind : Table TileKind := []
  accElem : Table (BitVec 48) := []
  lat : Table Latch := []
  outbound : List OutMsg := []
  /-- Window spills and fills that wait for an idle issue position, oldest first (R66). -/
  bg : List Instr := []
  /-- Arrivals of the core's slots at barriers whose phases are open, oldest first (R212). -/
  arrived : List Arrived := []
  /-- A revocation that begins when the rotation of the trap ends (R118, R266). -/
  revokeDue : Option Revoking := none
  /-- Records of the slots that benched in this rotation, in slot order (R266). -/
  records : List BenchRec := []
  deriving DecidableEq, Repr

/-! Banks (R108, R123). -/

/-- A claim on a bank (R107, R389). -/
structure Claim where
  core : Nat
  w : Nat
  owner : Nat
  /-- Turnstile of the launch whose window claims. -/
  ctx : Option Nat := none
  /-- Image (PA, length) to write at the grant of a load's claim (R389). -/
  image : Option (Nat × Nat) := none
  deriving DecidableEq, Repr

/-- What a bank held fallow for a swapped-out context lands in (R117, R257, R389): turnstile, core, window, rights, and the
image to write at the landing. -/
structure Reserved where
  ctx : Nat
  core : Nat
  w : Nat
  rd : Bool
  wr : Bool
  image : Option (Nat × Nat) := none
  deriving DecidableEq, Repr

/-- Why a bank drains (R109, R252). -/
inductive Drain where
  | dtch | disarm
  deriving DecidableEq, Repr

/-- A bank (R123). CORE reads as the site until a holder is recorded. -/
structure Bank where
  att : Bool := false
  fallow : Bool := true
  revoked : Bool := false
  win : Nat := 0
  core : Option Nat := none
  owner : BitVec 16 := 0
  gen : BitVec 16 := 0
  ce : Byte := 0
  queue : List Claim := []
  heldClaims : List Claim := []
  drain : Option Drain := none
  entering : Bool := false
  /-- The grant that waits for retention entry to end, or is in retention exit (R121). -/
  landing : Option Claim := none
  /-- Held fallow for a swapped-out context (R117, R257). -/
  reserved : Option Reserved := none
  /-- Claims on their way that were withdrawn: core, window, owner (R109, R118). -/
  withdrawn : List (Nat × Nat × Nat) := []
  clearing : Bool := false
  deriving DecidableEq, Repr

/-! Copies (R146-R152). -/

/-- The five copies. -/
inductive CopyKind where
  | cpyg | cpyb | cpyx | putr | getr
  deriving DecidableEq, Repr

/-- A row of a px8 transfer (R147, R172): its offset from the directory base and its length. -/
structure PxRow where
  src : Nat
  len : Nat
  deriving DecidableEq, Repr

/-- A px8 row that is being measured (R147): its offset, the bytes measured, and the blocks left. -/
structure PxProbe where
  src : Nat
  len : Nat
  left : Nat
  deriving DecidableEq, Repr

/-- Where a copy is suspended (R140, R152): the packet and the kind of fault, the address of its record, and the offset in the
transfer of its message. -/
structure CopyStop where
  packet : Nat
  kind : FaultKind
  va : Nat
  off : Nat
  deriving DecidableEq, Repr

/-- A mesh packet of a GETR's data on its way to the bank (R347): its name, the run it belongs to, the place of its bytes in the run,
and the bytes. -/
structure Inbound where
  id : Nat
  run : Nat
  pos : Nat
  data : List Byte
  deriving DecidableEq, Repr

/-- A copy, from its acceptance into w4 until it ends (R148). -/
structure Copy where
  id : Nat
  kind : CopyKind
  slot : SlotRef
  acct : Nat
  owner : Nat
  /-- Turnstile of the launch that issued it; none for a control core. -/
  ctx : Option Nat := none
  bank : Nat
  off : Nat
  seg : BitVec 128
  far : Dword
  /-- Far side of a CPYX: core, the turnstile of the context loaded there, bank, offset. -/
  farCore : Nat
  farCtx : Option Nat := none
  farBank : Nat
  farOff : Nat
  shape : BitVec 256
  sig : Option Signal
  msg : Option CopyMsg
  started : Bool := false
  /-- Streamer handle (R140), known once the copy has started. -/
  handle : Nat := 0
  /-- Rows of a px8 source found so far, and the one under way of a GETR. -/
  rows : List PxRow := []
  probe : Option PxProbe := none
  /-- Packets landed, chunks signalled, where it is suspended, and the packet whose poison passes. -/
  landed : List Nat := []
  signalled : List Nat := []
  fault : Option CopyStop := none
  poisonOk : Option Nat := none
  /-- Of a fabric transfer: it waits behind a suspended copy of its streamer, the packet at which it goes on then, and packets lost
  while it was suspended. -/
  behind : Bool := false
  resume : Nat := 0
  lost : List Nat := []
  inbound : List Inbound := []
  deriving DecidableEq, Repr

/-! Compute and memory dies. -/

/-- A leaf entry of the port TLB (R135): owner, page number at its size, and the leaf (R133). -/
structure TlbEntry where
  owner : Nat
  page : Nat
  leaf : Dword
  deriving DecidableEq, Repr

/-- A page-fault record (R140). -/
structure PfqRecord where
  h : Dword
  v : Dword
  deriving DecidableEq, Repr

/-- A queued relaxed DRAM store (R234). -/
structure Egress where
  slot : SlotRef
  id : Nat
  acct : Nat
  port : Bool
  pieces : List Piece
  data : List Byte
  /-- It has left for its memory die (R265). -/
  gone : Bool := false
  /-- Each of its pieces is a store of its own when it meets poison (R377). -/
  each : Bool := false
  deriving DecidableEq, Repr

/-- A SPAWN request (R95). -/
structure SpawnReq where
  core : Option Nat
  die : Nat
  entry : BitVec 16
  owner : BitVec 16
  acct : Byte
  args : List Dword
  stealable : Bool
  deriving DecidableEq, Repr

/-- One stream of a row's barker (R77, R82): the launch, the next offset, whether it waits for a lead, the offset and words
sent east and not yet taken, and whether the stream stopped. -/
structure Barker where
  launch : Option Nat := none
  next : BitVec 16 := 0
  waiting : Bool := false
  stopped : Bool := false
  sent : List StreamWord := []
  /-- Final values of VOTEs on their way back west, and the columns they reach next (R90). -/
  votes : List (Nat × Bool × Nat) := []
  /-- The fetch waits for a page (R83). -/
  stall : Option Park := none
  deriving DecidableEq, Repr

/-- A replica of an object on a die's carousel (R218): its pool banks, applied position, whether it stopped. -/
structure Replica where
  pool : List Nat := []
  applied : Nat := 0
  reported : Nat := 0
  /-- Positions in the reports that are on their way to the sequencer, oldest first (R218). -/
  onWay : List Nat := []
  stopped : Bool := false
  /-- A resync of it is due (R231). -/
  resync : Bool := false
  deriving DecidableEq, Repr

/-- A read request of the carousel's FIFO (R218, R225). -/
structure ReadReq where
  obj : Nat
  method : Nat
  args : List Dword
  caller : SlotRef
  deriving DecidableEq, Repr

/-- A compute die. -/
structure Die where
  /-- Core-map bits set in the field, by row (R16); fuse bits are State.fuses. -/
  marks : Table Word := []
  cmapst : Word := 0
  bcmd : Dword := 0
  oroot : Table Dword := []
  portNear : Dword := 0
  portFar : Dword := 0
  tlb : List TlbEntry := []
  pfq : List PfqRecord := []
  /-- Faulting requests that wait in the port while the queue is full (R140). -/
  pfqWait : List PfqRecord := []
  egress : List Egress := []
  ready : List SpawnReq := []
  barkers : Table Barker := []
  /-- Lines that the instruction cache of a row's barker holds, by their keys (R77). -/
  icache : Table (List Nat) := []
  replicas : Table Replica := []
  reads : List ReadReq := []
  /-- Last object slot 0 of the carousel applied (R218), and the commit that waits for reads. -/
  turn : Nat := 0
  hot : Option Int := none
  deriving DecidableEq, Repr

/-- A memory die (R143, R144). -/
structure MemDie where
  status : Nat := 0
  block : BitVec 42 := 0
  /-- The migration under way: entry PA, old entry, new entry, owner. -/
  job : Option (Nat × Dword × Dword × Nat) := none
  /-- Corrected errors of the channels (R144). -/
  corrected : Table Nat := []
  deriving DecidableEq, Repr

/-! The I/O die. -/

/-- Per-slot fields of a launch descriptor (R246). -/
structure SlotDesc where
  entry : BitVec 16
  ten : BitVec 7
  wsp : BitVec 16
  wlim : BitVec 16
  deriving DecidableEq, Repr

/-- A launch descriptor (R246), as ARM copied it (R310). -/
structure Desc where
  owner : BitVec 16
  acct : Byte
  cls : Nat
  gate : Nat
  storePA : Nat
  streamVA : Nat
  streamLen : Nat
  logPA : Nat
  logN : Nat
  payPA : Nat
  payVA : Nat
  segPA : Nat
  bankPA : Nat
  ctxPA : Nat
  launched : Byte
  streamed : Byte
  roles : BitVec 16
  slots : List SlotDesc
  deriving DecidableEq, Repr

/-- An item of an arrival log (R202). -/
structure LogItem where
  delivery : Nat
  core : Nat
  slot : Nat
  num : Nat
  seq : Nat
  payload : Dword
  header : Dword
  /-- Entry of the ring that holds it; of a barrier arrival, whether the context that made it still runs in the slot. -/
  pos : Nat := 0
  live : Bool := true
  deriving DecidableEq, Repr

/-- A bank of a swapped-out context (R257): its core and window, bank id, rights, and its bytes and poison when they were
written to the image. -/
structure SavedBank where
  core : Nat
  w : Nat
  bank : Nat
  rd : Bool
  wr : Bool
  image : Option (List Host.Cell × List Nat)
  deriving DecidableEq, Repr

/-- The saved state of a swapped-out context (R256). -/
structure Saved where
  slots : List (Nat × Slot)
  sites : List (Nat × Site)
  stores : List Host.Cell
  descriptors : List Host.Cell
  banks : List SavedBank
  barkers : List (Nat × Barker)
  /-- The bytes written to the area of the context image (R256, R310). -/
  area : List Byte := []
  deriving DecidableEq, Repr

/-- A context: one started launch (R255). -/
structure Context where
  loaded : Bool := false
  saved : Option Saved := none
  /-- The first load is still to be made (R251). -/
  unloaded : Bool := true
  log : List LogItem := []
  logSeq : Nat := 0
  /-- Items that wait in the port while the log is full (R258). -/
  logWait : List LogItem := []
  /-- When it became waiting (R255); 0 when it is not. -/
  waitingSince : Nat := 0
  /-- I/O-die time at which its quantum ends (R255). -/
  quantumEnd : Nat := 0
  expired : Bool := false
  idle : Bool := false
  /-- A pre-emption is under way, for the context of this turnstile, or for a checkpoint (1024): slots stop at their
  boundaries (R256, R285). -/
  stopping : Option Nat := none
  /-- A checkpoint took it out: it is restored only on command (R285). -/
  held : Bool := false
  /-- A trap with REVOKE met a pre-emption (R266). -/
  pendingRevoke : List SlotRef := []
  deriving DecidableEq, Repr

/-- A launch that Penvis has loaded, with the numbers of its own objects (R298). -/
structure LoadedPlan where
  plan : LaunchPlan
  own : List Nat
  deriving DecidableEq, Repr

/-- An image whose own objects were not created (R298): the cause, and the launches of it that were turned away since. -/
structure RefusedImage where
  cause : Nat := 0
  stores : List Nat := []
  /-- Launches that were turned away for a reason of their own. -/
  own : List Nat := []
  deriving DecidableEq, Repr

/-- A turnstile (R247). -/
structure Turnstile where
  state : Nat := 0
  err : Nat := 0
  count : Nat := 0
  gate : Nat := 0
  out : Nat := 0
  tag : Nat := 0
  rect : Word := 0
  fires : Nat := 0
  desc : Option Desc := none
  ctx : Option Context := none
  /-- Tagged messages that wait while OUT = 4, with the I/O-die time of their arrival (R251). -/
  held : List (Tagged × Nat) := []
  /-- Firings whose message waits for the load (R251). -/
  firings : List Message := []
  /-- The slot whose DISARM is under way (R321). -/
  closer : Option SlotRef := none
  deriving DecidableEq, Repr

/-- An object of the replay sequencer (R215). -/
structure Object where
  w0 : Dword := 0
  w1 : Dword := 0
  w2 : Dword := 0
  tail : Nat := 0
  trim : Nat := 0
  /-- Pinned positions (R232), reported positions by die (R229), reported codes (die, position, code) (R231). -/
  pins : List Nat := []
  reported : Table Nat := []
  codes : List (Nat × Nat × Nat) := []
  /-- V was cleared and the replicas are not yet discarded (R215). -/
  busy : Bool := false
  /-- Place of its carousel image in the core store of each carousel of REPL, and its length (R299). -/
  code : Table Nat := []
  codeLen : Nat := 0
  deriving DecidableEq, Repr

/-- What a fabric request was made for (R264, R265). -/
inductive ReqFor where
  | load (dest : LoadDest) | store | atomic (d : R4) (cas : Bool) (bytes : Nat)
  | relaxedLoad (id : Nat) | relaxedStore (id : Nat)
  | put (copy packet : Nat) | get (copy packet : Nat) | probe (copy : Nat) | sendt
  /-- A far word of a control core, by its offset (R290). -/
  | fetch (off : Dword)
  /-- The next row of the matrix command of this name (R194). -/
  | row (cmd : Nat)
  /-- A packet of a checkpoint (R285). -/
  | ckpt
  deriving DecidableEq, Repr

/-- An outstanding fabric request (R265). An unmarked access that takes several requests gives them one group; each keeps
its reply until the last has come. -/
structure Request where
  id : Nat
  group : Nat
  slot : SlotRef
  tepc : BitVec 16
  words : Nat
  addr : Dword
  pos : Nat
  n : Nat
  got : Option (List Byte)
  what : ReqFor
  /-- Device asked, owner and account of the requester; TINFO.REASON once the request is refused or lost. -/
  dev : Nat := 0
  owner : Nat := 0
  acct : Nat := 0
  /-- Its class on the networks (R271). -/
  cls : Nat := 0
  bad : Option Nat := none
  /-- Turnstile of the requester's launch; none for a control core, `nobody` once the requester has ended. -/
  ctx : Option Nat := none
  deriving DecidableEq, Repr

/-- A fault-log record (R264). -/
structure FaultRecord where
  src : Nat
  owner : Nat
  kind : Nat
  addr : Nat
  time : Nat
  deriving DecidableEq, Repr

/-- A fabric port (R277). -/
structure Port where
  state : Nat := 0
  retry : Nat := 0
  trains : Nat := 0
  fails : Nat := 0
  seq : Nat := 0
  /-- Packet count of the GCM nonce (R274). -/
  count : Nat := 0
  /-- Session keys the port has had (R274, R281). -/
  session : Nat := 0
  /-- Sequence number of the next packet that comes in (R277). -/
  expect : Nat := 0
  /-- Replay buffer: account and packet, oldest first. -/
  replay : List (Nat × Packet) := []
  deriving DecidableEq, Repr

/-- A packet as a port sent it (R274): its port, its fields, and its bytes, whole flits. -/
structure Wired where
  port : Nat
  packet : Packet
  bytes : List Byte
  deriving DecidableEq, Repr

/-- A duty event sent to a host and not acknowledged (R294). -/
structure DutyEvent where
  f : Nat
  code : Nat
  socket : Nat
  payload : Dword
  port : Nat
  seq : Nat
  /-- The host it was sent to. -/
  host : Nat := 0
  deriving DecidableEq, Repr

/-! Networks (R267-R273, R300). -/

/-- Slot kinds of a router input (R269). -/
inductive Kind where
  | vc0 | vc1 | pool | d0 | d1
  deriving DecidableEq, Repr

/-- A flit at a router input: packet, number, last flit or not, the slot it occupies. -/
structure Flit where
  pkt : Nat
  idx : Nat
  last : Bool
  kind : Kind
  /-- The virtual channel of the packet where it stands: VC1 after the stile. -/
  crossed : Bool
  /-- Links it has crossed. -/
  hops : Nat
  deriving DecidableEq, Repr

/-- A packet on the meshes and the interposer (R267, R273), between two routers: its event is posted when its last flit is
ejected. -/
structure NetPacket where
  id : Nat
  src : Nat
  dst : Nat
  cls : Nat
  cw : Bool
  flits : Nat
  /-- The links that each flit that took a drove-lane slot had crossed then (R270, R300). -/
  drove : List Nat := []
  /-- Links that its last flit has crossed (R273). -/
  tail : Nat := 0
  /-- Whether its header failed the CRC on the interposer until it was given up (R265). -/
  lost : Bool := false
  /-- What its arrival is; none for a packet of an access that is performed in one step (log 16). -/
  ev : Option Instr
  deriving DecidableEq, Repr

/-- What a slot or its streamer sent, or what the part posted for its hand-over, and the part has not yet placed, logged or dropped
(R114, R150, R198, R203, R356, R359). -/
inductive SentKind where
  | mail | notice (mb : Nat) (m : Message) | sem (op : SemOp) (j : Nat) | signal (op : SemOp) (j : Nat) | tagged (tag : Nat) | part (mb : Nat) (m : Message)
  deriving DecidableEq, Repr

/-- One such message, addition or tagged message: its sender, target core and instruction. -/
structure Sent where
  id : Nat
  slot : SlotRef
  dst : Nat
  kind : SentKind
  tepc : BitVec 16
  owner : Nat
  /-- Turnstile of the sender's launch; none for a control core, `nobody` once the sender has ended. -/
  ctx : Option Nat := none
  /-- Turnstile of the context that a streamer's signal or record is for (R150-R152, R319). -/
  tgt : Option Nat := none
  deriving DecidableEq, Repr

/-- An arrival at a barrier on its way (R212): core, slot, barrier id, rectangle, the launch of the slot, and whether the
context that made it still runs there. -/
structure BarSent where
  core : Nat
  k : Nat
  id : Nat
  rect : Word
  ctx : Option Nat
  live : Bool := true
  deriving DecidableEq, Repr

/-- A router (R269, R272): counters and input queues by input lane; by output lane and class the packet that holds it, the
cycles the class has waited and the input served last (R271). -/
structure Router where
  flits : Dword := 0
  drove : Dword := 0
  stile : Dword := 0
  stall : Dword := 0
  inq : Table (List Flit) := []
  /-- Flits that wait at the site port to enter the mesh. -/
  inject : List Flit := []
  holds : Table Nat := []
  waits : Table Nat := []
  served : Table Nat := []
  deriving DecidableEq, Repr

/-! The registers of the I/O die. -/

/-- A TLBI under way (R136): its issuer when a slot is, scope, owner and page, and the dies that have not acknowledged. -/
structure Tlbi where
  id : Nat
  slot : Option SlotRef
  scope : TlbScope
  owner : Nat
  va : Nat
  dies : List Nat
  deriving DecidableEq, Repr

/-- What a host's command waits for (R295): the release of a turnstile, with whether it is the DISARM under way; the
acknowledgements of a TLBI; the resync of dies and the trim of an object. -/
inductive HostWhat where
  | disarm (n : Nat) (closes : Bool) | tlbi (id : Nat) | trim (obj : Nat) (dies : List Nat)
  deriving DecidableEq, Repr

/-- A command of a host that is not done: its sender, function, code, socket and sequence number. -/
structure HostWait where
  device : Nat
  f : Nat
  code : Nat
  socket : Nat
  seq : Nat
  what : HostWhat
  deriving DecidableEq, Repr

/-- The I/O die's own registers and queues, but for what it sends on the management port. -/
structure IodState where
  ns : Nat := 0
  tcal : Table Dword := []
  devid : Dword := 0
  devt : Table Dword := []
  duty : Dword := 0
  dutyHost : Table Dword := []
  mr : Table (BitVec 256) := []
  accounts : Table Dword := []
  snapshots : Nat := 0
  ckptStatus : Nat := 0
  ckptArgs : Dword := 0
  /-- Packets of the checkpoint sent so far (R285). -/
  ckptSent : Nat := 0
  romOff : Bool := false
  faultLog : List FaultRecord := []
  flogIndex : Nat := 0
  flogDropped : Nat := 0
  ports : Table Port := []
  requests : List Request := []
  /-- Packets sent, oldest first, and resends asked of a peer, by port and sequence number (R274, R277). -/
  sent : List Wired := []
  resends : List (Nat × Nat) := []
  events : List DutyEvent := []
  eventSeq : Table Nat := []
  /-- Quanta of the classes in ns (R255). -/
  quanta : Table Nat := [(0, 50000), (1, 200000), (2, 1000000), (3, 5000000)]
  tlbis : List Tlbi := []
  hostWaits : List HostWait := []
  verified : Bool := true
  frozen : Bool := false
  tripped : Bool := false
  throttled : Bool := false
  deriving DecidableEq, Repr

/-- What left the part on the management port (R23, R281, R283, R291, R294). -/
inductive MgmtOut where
  | thermal (die : Nat) (celsius : Int)
  | duty (f host : Nat)
  | bench (msg : Message)
  | answer (bytes : List Byte)
  | measurements (values : List (Nat × BitVec 256)) (bytes : List Byte)
  | debug (value : List Byte)
  /-- A byte of memory, whether its word or line is marked, and the bits of it in error (R122, R144). -/
  | cell (b : Byte) (poison : Bool) (wrong : Nat)
  | slot (x : Slot)
  | site (x : Site)
  | bank (x : Bank)
  | die (x : Die)
  | memoryDie (x : MemDie)
  | turnstile (x : Turnstile)
  | object (x : Object)
  | router (x : Router)
  | iod (x : IodState)
  | copy (x : Option Copy)
  | reservations (queue : List SlotRef)
  | barker (x : Barker)
  | sent (mail : List Sent) (bars : List BarSent)
  | packets (ps : List NetPacket)
  /-- A launch that is not loaded: 0 no free object number, 1-3 the ERR value, 4 no room in a core store (R298), 5 no usable
  rectangle (R254). -/
  | loadRefused (store cause : Nat)
  deriving DecidableEq, Repr

/-- The I/O die, with what left it on the management port. -/
structure Iod extends IodState where
  mgmt : List MgmtOut := []
  deriving DecidableEq, Repr

/-! Outcomes and the state. -/

/-- Why a step stops. -/
inductive Fault where
  /-- The part has no power (R23, R280): nothing runs until POWER_ON. Raised by the step; safe. -/
  | noPower
  deriving DecidableEq, Repr

/-- Why an instruction has no meaning. -/
inductive Refusal where
  /-- An instruction this model has not reached; raised by the dispatch; safe. -/
  | notModelled (mnemonic : String)
  deriving DecidableEq, Repr

/-- The state of the part. -/
structure State where
  slots : Table Slot
  sites : Table Site
  banks : Table Bank
  /-- Memory bytes by key (Machine/Ops.lean): DRAM, banks, core stores, private SRAM, pools, descriptor stores. -/
  mem : List Host.Cell
  poison : Table Bool
  /-- Bits in error, by bank word or DRAM line, that the check bits still correct (R120, R122, R144). -/
  wrong : Table Nat
  tags : Table Nat
  /-- Owner + 1 of each key slot; 0 unbound (R145). -/
  keys : Table Nat
  fuses : Table Word
  dies : Table Die
  mds : Table MemDie
  iod : Iod
  turnstiles : Table Turnstile
  objects : Table Object
  copies : List Copy
  /-- Reservation queues: slots in FIFO order by the key of the word (R207). -/
  resv : Table (List SlotRef)
  routers : Table Router
  packets : List NetPacket
  /-- Launches that Penvis has loaded, by the address of the core-store image, the objects of the images loaded, and the images
  refused (R298, log 76). -/
  plans : Table (Option LoadedPlan)
  shared : Table (List Nat)
  refusedImages : Table RefusedImage
  sends : List Sent
  barSends : List BarSent
  power : Bool
  /-- The die's cycle count divided by 8 (R65), and the slot whose issue position it is. -/
  cycle : Nat
  cur : SlotRef
  /-- The model's own (log 3, log 25): whether parked slots whose event has come go on first, stimuli, posted work, whose
  turn it is, free values drawn, names given. -/
  resumes : Bool
  inputs : List Instr
  work : List Instr
  evTurn : Bool
  draws : Nat
  nextId : Nat
  deriving DecidableEq, Repr

/-- Key slot bindings at reset: slot 0 is bound to owner 0 (R288), the others as the security block bound them (R145, log 48). -/
def keysReset : Table Nat :=
  (0, 1) :: (List.range 255).filterMap fun i => (Config.keyOwner (i + 1)).map fun o => (i + 1, o.toNat + 1)

/-- The slot that runs after reset: slot 0 of I/O-die CC0 (R289). -/
def bootSlot : SlotRef := { place := .ctl 0 0, k := 0 }

/-- LIMIT 2^30, BASE the window of socket s, R, W, V, PHYS (R288). -/
def socketSegment (s : Nat) : BitVec 128 :=
  BitVec.ofNat 128 (0xF00000000000 + s * 2 ^ 36 + 2 ^ 30 * 2 ^ 64 + 2 ^ 96 + 2 ^ 97 + 2 ^ 99 + 2 ^ 100)

/-- A control-core slot as it starts (R289). -/
def startedSlot (s k : Nat) : Slot :=
  { status := .ready, q := 1, g := if k = 0 then [] else [(4, BitVec.ofNat 64 k)], segs := [(1, socketSegment s)] }

/-- The machine right after reset: only slot 0 of I/O-die CC0 runs, at offset 0 of the boot ROM (R289). -/
def State.reset : State where
  slots := [(slotKey bootSlot, startedSlot 0 0)]
  sites := []
  banks := []
  mem := []
  poison := []
  wrong := []
  tags := []
  keys := keysReset
  fuses := Config.fuseDead
  dies := []
  mds := []
  iod := {}
  turnstiles := []
  objects := []
  copies := []
  resv := []
  routers := []
  packets := []
  plans := []
  shared := []
  refusedImages := []
  sends := []
  barSends := []
  power := true
  cycle := 0
  cur := bootSlot
  resumes := false
  inputs := []
  work := []
  evTurn := false
  draws := 0
  nextId := 0

end Sys2Proof.Machine
end

