-- ==== Sys2Proof/Machine/Tables.lean ====
section
/-! DEFINITION. Reading and changing the tables of the state, and the numbering of places (R7, R13, R100, R286). -/
namespace Sys2Proof.Machine

/-! Tables of the state. -/

/-- A slot. -/
def State.slot (s : State) (r : SlotRef) : Slot := tget {} s.slots (slotKey r)
/-- Writing a slot. -/
def State.setSlot (s : State) (r : SlotRef) (x : Slot) : State := { s with slots := tset {} s.slots (slotKey r) x }
/-- Changing a slot. -/
def State.modSlot (s : State) (r : SlotRef) (f : Slot → Slot) : State := s.setSlot r (f (s.slot r))
/-- The site of a place. -/
def State.site (s : State) (p : Nat) : Site := tget {} s.sites p
/-- Writing a site. -/
def State.setSite (s : State) (p : Nat) (x : Site) : State := { s with sites := tset {} s.sites p x }
/-- Changing a site. -/
def State.modSite (s : State) (p : Nat) (f : Site → Site) : State := s.setSite p (f (s.site p))
/-- A bank of the bank table (R123). -/
def State.bank (s : State) (b : Nat) : Bank := tget {} s.banks b
/-- Writing a bank. -/
def State.setBank (s : State) (b : Nat) (x : Bank) : State := { s with banks := tset {} s.banks b x }
/-- Changing a bank. -/
def State.modBank (s : State) (b : Nat) (f : Bank → Bank) : State := s.setBank b (f (s.bank b))
/-- A compute die. -/
def State.die (s : State) (d : Nat) : Die := tget {} s.dies d
/-- Changing a compute die. -/
def State.modDie (s : State) (d : Nat) (f : Die → Die) : State := { s with dies := tset {} s.dies d (f (s.die d)) }
/-- A memory die. -/
def State.md (s : State) (d : Nat) : MemDie := tget {} s.mds d
/-- Changing a memory die. -/
def State.modMd (s : State) (d : Nat) (f : MemDie → MemDie) : State := { s with mds := tset {} s.mds d (f (s.md d)) }
/-- A turnstile (R247). -/
def State.tst (s : State) (n : Nat) : Turnstile := tget {} s.turnstiles n
/-- Changing a turnstile. -/
def State.modTst (s : State) (n : Nat) (f : Turnstile → Turnstile) : State :=
  { s with turnstiles := tset {} s.turnstiles n (f (s.tst n)) }
/-- A replayed object (R215). -/
def State.obj (s : State) (n : Nat) : Object := tget {} s.objects n
/-- Changing an object. -/
def State.modObj (s : State) (n : Nat) (f : Object → Object) : State :=
  { s with objects := tset {} s.objects n (f (s.obj n)) }
/-- Changing the I/O die. -/
def State.modIod (s : State) (f : Iod → Iod) : State := { s with iod := f s.iod }
/-- Posting an event of a unit. -/
def State.post (s : State) (e : Instr) : State := { s with work := s.work ++ [e] }
/-- Posting several events. -/
def State.posts (s : State) (es : List Instr) : State := { s with work := s.work ++ es }
/-- A fresh name. -/
def State.fresh (s : State) : Nat := s.nextId + 1
/-- Taking a fresh name. -/
def State.bump (s : State) : State := { s with nextId := s.nextId + 1 }
/-- Drawing free values (log 25). -/
def State.drawn (s : State) (n : Nat) : State := { s with draws := s.draws + n }
/-- The ns count has moved on by a free amount (R278, log 6). -/
def State.tick (s : State) : State :=
  { s with iod := { s.iod with ns := s.iod.ns + Config.freeNat s.draws }, draws := s.draws + 1 }

/-! Places. -/

/-- Compute die of a place, none on the I/O die (R13, R286). -/
def dieOf : Place → Option Nat
  | .mesh c => some (c / 1024)
  | .ctl sock _ => if 1 ≤ sock ∧ sock ≤ 8 then some (sock - 1) else none
  | .carousel d => some d
/-- Socket of a place (R7). -/
def socketOf : Place → Nat
  | .mesh c => 1 + c / 1024
  | .ctl sock _ => sock
  | .carousel d => 1 + d
/-- Whether a place is a mesh core. -/
def isMesh : Place → Bool
  | .mesh _ => true
  | _ => false
/-- Whether a place is a control core. -/
def isCtl : Place → Bool
  | .ctl _ _ => true
  | _ => false
/-- Whether a place is a carousel. -/
def isCarousel : Place → Bool
  | .carousel _ => true
  | _ => false
/-- Slot id of a mesh slot (R13), SLOT of a control-core slot (R287). -/
def slotId (r : SlotRef) : Nat :=
  match r.place with
  | .mesh c => c + r.k * 2 ^ 13
  | .ctl sock n => 2 ^ 16 + r.k * 2 ^ 13 + sock * 8 + n
  | .carousel d => 2 ^ 17 + d * 8 + r.k
/-- The mesh slot a slot id names (R13). -/
def slotOfId (n : Nat) : SlotRef := { place := .mesh (n % 2 ^ 13), k := n / 2 ^ 13 % 8 }
/-- Die, row and column of a core id (R13). -/
def coreDie (c : Nat) : Nat := c / 1024
/-- Row of a core id. -/
def coreRow (c : Nat) : Nat := c / 32 % 32
/-- Column of a core id. -/
def coreCol (c : Nat) : Nat := c % 32
/-- Core id of a die, row and column (R13). -/
def coreId (d row col : Nat) : Nat := d * 1024 + row * 32 + col
/-- Whether a core is marked unusable, by fuses or in the field (R16). -/
def State.dead (s : State) (c : Nat) : Bool :=
  (tget 0 s.fuses (c / 32)).getLsbD (coreCol c) || (tget 0 (s.die (coreDie c)).marks (coreRow c)).getLsbD (coreCol c)
/-- A slot of a mesh core. -/
def meshSlot (c k : Nat) : SlotRef := { place := .mesh c, k := k }
/-- The slots of a mesh core. -/
def coreSlots (c : Nat) : List SlotRef := (List.range 8).map (meshSlot c)
/-- The site a bank belongs to (R100). -/
def bankSite (b : Nat) : Nat := b % 2 ^ 13

end Sys2Proof.Machine
end

