-- ==== Sys2Proof/Machine/Net.lean ====
section
/-! DEFINITION. The meshes and the interposer: packets, flits, routers (R7, R8, R17, R267-R273, R300; log 16). Router c is that of
core c; the interposer's routers follow at `interNode`. Ports are numbered by side: 0 east, 1 west, 2 north (on the interposer
the column link), 3 south, 4 the site port or, of a passenger without a mesh, its socket port; 5 stands for the flits that wait to
enter at port 4; 6 is the socket port of a compute die. -/
namespace Sys2Proof.Machine

/-- A router. -/
def State.router (s : State) (c : Nat) : Router := tget {} s.routers c
/-- Changing a router. -/
def State.modRouter (s : State) (c : Nat) (f : Router → Router) : State :=
  { s with routers := tset {} s.routers c (f (s.router c)) }
/-- Flits at an input lane. -/
def Router.input (x : Router) (p : Nat) : List Flit := tget [] x.inq p
/-- Setting the flits at an input lane. -/
def Router.setInput (x : Router) (p : Nat) (q : List Flit) : Router := { x with inq := tset [] x.inq p q }

/-! Places on the networks (R7, R8; where a die's socket port and its units join its mesh: DESIGN CHOICE, log 16). -/

/-- Number of the first interposer router. -/
def interNode : Nat := 2 ^ 15
/-- Whether a router is a mesh's. -/
def onMesh (n : Nat) : Bool := n < interNode
/-- The interposer router at a position (R7). -/
def interAt (row col : Nat) : Nat := interNode + 9 * row + col
/-- Row of an interposer router. -/
def interRow (n : Nat) : Nat := (n - interNode) / 9
/-- Column of an interposer router. -/
def interCol (n : Nat) : Nat := (n - interNode) % 9
/-- The interposer router of a socket (R7). -/
def socketNode (sock : Nat) : Nat := if sock ≤ 8 then interAt 0 sock else interAt 1 (sock - 8)
/-- The router of the I/O die. -/
def ioNode : Nat := socketNode 0
/-- The router of a memory die. -/
def memNode (m : Nat) : Nat := socketNode (9 + m)
/-- The mesh router that a compute die's socket port and its control cores, carousel and walker join. -/
def gate (d : Nat) : Nat := coreId d 0 0
/-- The router of a place. -/
def nodeOf : Place → Nat
  | .mesh c => c
  | .ctl sock _ => if 1 ≤ sock ∧ sock ≤ 8 then gate (sock - 1) else ioNode
  | .carousel d => gate d
/-- The router of a place by its key. -/
def nodeOfKey (p : Nat) : Nat :=
  if p < 8192 then p
  else if p < 16384 then nodeOf (.ctl ((p - 8192) / 8) ((p - 8192) % 8))
  else gate (p - 16384)

/-! Routes (R268, R273). -/

/-- Output on a mesh towards a router of the same die: row leg first, the shorter way, east or south on a tie; east with the
hint. -/
def meshOut (here dst : Nat) (cw : Bool) : Nat :=
  if coreCol here ≠ coreCol dst then
    if cw || (coreCol dst + 32 - coreCol here) % 32 ≤ 16 then 0 else 1
  else if coreRow here ≠ coreRow dst then
    if (coreRow dst + 32 - coreRow here) % 32 ≤ 16 then 3 else 2
  else 4

/-- Output of a packet at a router. The hint of SEND counts on the target's die alone (R198). -/
def outOf (here dst : Nat) (cw : Bool) : Nat :=
  if onMesh here then
    if onMesh dst && coreDie here == coreDie dst then meshOut here dst cw
    else if here = gate (coreDie here) then 6
    else meshOut here (gate (coreDie here)) false
  else
    let to_ := if onMesh dst then socketNode (1 + coreDie dst) else dst
    if interCol here ≠ interCol to_ then
      if (interCol to_ + 9 - interCol here) % 9 ≤ 4 then 0 else 1
    else if interRow here ≠ interRow to_ then 2
    else if onMesh dst then 6
    else 4

/-- The router across an output link; rings wrap (R8, R267). -/
def across (c out : Nat) : Nat :=
  if onMesh c then
    let d := coreDie c
    let r := coreRow c
    let k := coreCol c
    match out with
    | 0 => coreId d r ((k + 1) % 32)
    | 1 => coreId d r ((k + 31) % 32)
    | 2 => coreId d ((r + 31) % 32) k
    | 3 => coreId d ((r + 1) % 32) k
    | _ => socketNode (1 + d)
  else
    match out with
    | 0 => interAt (interRow c) ((interCol c + 1) % 9)
    | 1 => interAt (interRow c) ((interCol c + 8) % 9)
    | 2 => interAt (1 - interRow c) (interCol c)
    | _ => gate (interCol c - 1)

/-- The input port at the far end of an output link. -/
def farPort (c out : Nat) : Nat :=
  match out with
  | 0 => 1
  | 1 => 0
  | 2 => if onMesh c then 3 else 2
  | 3 => 2
  | n => n

/-- Whether an output link of a router is the stile of its ring (R269, R273). -/
def isStile (c out : Nat) : Bool :=
  if onMesh c then
    match out with
    | 0 => coreCol c == 31 | 1 => coreCol c == 0 | 2 => coreRow c == 0 | 3 => coreRow c == 31 | _ => false
  else
    match out with
    | 0 => interCol c == 8 | 1 => interCol c == 0 | _ => false

/-- Whether an output link lies on the ring a flit came in on. -/
def sameRing (port out : Nat) : Bool := (port < 2 && out < 2) || (2 ≤ port && port < 4 && 2 ≤ out && out < 4)

/-- Lanes of an output link (R8, R267, R273): one on a mesh; on the interposer 12, 24 of the double link of a column and of a socket
port. -/
def laneCount (c out : Nat) : Nat := if out = 6 then 24 else if onMesh c then 1 else if out < 2 then 12 else 24
/-- An input or output lane, as one number. -/
def laneKey (port lane : Nat) : Nat := 32 * port + lane
/-- A class on a lane. -/
def classKey (port lane cls : Nat) : Nat := 4 * laneKey port lane + cls

/-! Slots and fronts (R269, R270, R300). -/

/-- Flits of a kind at an input. -/
def kindCount (q : List Flit) (k : Kind) : Nat := (q.filter fun f => f.kind == k).length

/-- The slot kind a flit takes at an input (R270): private, shared, drove lane; a flit bound to the drove lane takes no other. -/
def kindFor (q : List Flit) (crossed drove : Bool) : Option Kind :=
  let lane : Kind := if crossed then .d1 else .d0
  let own : Kind := if crossed then .vc1 else .vc0
  if !drove && kindCount q own < 2 then some own
  else if !drove && kindCount q .pool < 8 then some .pool
  else if kindCount q lane < 1 then some lane
  else none

/-- Whether a slot kind is of the drove lane. -/
def inDrove (k : Kind) : Bool := k == .d0 || k == .d1

/-- A packet by its name. -/
def State.packet (s : State) (id : Nat) : Option NetPacket := s.packets.find? fun p => p.id == id
/-- Changing a packet. -/
def State.modPacket (s : State) (id : Nat) (f : NetPacket → NetPacket) : State :=
  { s with packets := s.packets.map fun p => if p.id = id then f p else p }

/-- Whether a flit that has crossed so many links takes drove-lane slots only (R300): a flit of its packet took one at that router or
before. -/
def NetPacket.bound (p : NetPacket) (hops : Nat) : Bool := p.drove.any fun h => h ≤ hops

/-- Flits that stand at the front of their queue at an input (R300): one for each VC and one for the drove lane. -/
def fronts (q : List Flit) : List Flit :=
  let queue (f : Flit) : Nat := if inDrove f.kind then 2 else if f.crossed then 1 else 0
  [0, 1, 2].filterMap fun n => q.find? fun f => queue f == n

/-- A front flit that waits for an output lane. -/
structure Move where
  inp : Nat
  flit : Flit
  pkt : NetPacket
  crossed : Bool
  /-- Slot it takes downstream; none when the advertised counts refuse it. -/
  kind : Option Kind
  deriving DecidableEq, Repr

/-- The bank that a copy writes, if it writes one (R146). -/
def Copy.bankWritten (c : Copy) : Option Nat :=
  match c.kind with
  | .cpyg | .getr => some c.bank
  | .cpyx => some c.farBank
  | .cpyb | .putr => none

/-- Whether a copy packet waits for a bank that has still to leave retention: its window is in LAND (R103, R300). -/
def State.copyLands (s : State) : Option Instr → Bool
  | some (.copyPacketLand id _) => match (s.copies.find? fun c => c.id == id).bind Copy.bankWritten with
    | some b => (s.bank b).landing.isSome
    | none => false
  | _ => false

/-- Whether an earlier packet of the same source and destination has still to send its last flit over a link (R273). -/
def State.pairAhead (s : State) (p : NetPacket) (hops : Nat) : Bool :=
  s.packets.any fun o => o.id < p.id && o.src == p.src && o.dst == p.dst && o.tail ≤ hops

/-- Whether an earlier flit of its packet still stands at a flit's input: a packet's flits leave in order, also those in the drove lane
(R270, R300). -/
def Router.behind (x : Router) (inp : Nat) (f : Flit) : Bool := (x.input inp).any fun g => g.pkt == f.pkt && g.idx < f.idx

/-- The move of a front flit over an output lane; none while another packet of its class holds the lane (R271). The advertised counts
are those of this cycle (DESIGN CHOICE, log 101). -/
def State.moveOf (s : State) (c out lane inp : Nat) (f : Flit) : Option Move :=
  match s.packet f.pkt with
  | none => none
  | some p =>
    let held := tget 0 (s.router c).holds (classKey out lane p.cls)
    if outOf c p.dst p.cw ≠ out ∨ p.id % laneCount c out ≠ lane then none
    else if held ≠ 0 ∧ held ≠ p.id then none
    else if f.idx = 0 ∧ s.pairAhead p f.hops then none
    else if held = 0 ∧ f.idx ≠ 0 then none
    else if (s.router c).behind inp f then none
    else if out = 4 then (if s.copyLands p.ev then none else some { inp := inp, flit := f, pkt := p, crossed := f.crossed, kind := some f.kind })
    else
      let crossed := (sameRing (inp / 32) out && f.crossed) || isStile c out
      let q := (s.router (across c out)).input (laneKey (farPort c out) lane)
      some { inp := inp, flit := f, pkt := p, crossed := crossed, kind := kindFor q crossed (p.bound (f.hops + 1)) }

/-- The front flits that wait for an output lane. -/
def State.movesAt (s : State) (c out lane : Nat) : List Move :=
  (s.router c).inq.flatMap fun e => (fronts e.2).filterMap (s.moveOf c out lane e.1)

/-! Arbitration (R271). -/

/-- The moves of a class in the order they are chosen: round-robin over the inputs from the one served last, then by age. -/
def chosenOrder (last : Nat) (ms : List Move) : List Move :=
  let rank (m : Move) : Nat := (m.inp + 2 ^ 10 - (last + 1)) % 2 ^ 10 * 2 ^ 40 + m.pkt.id
  ms.mergeSort fun a b => rank a ≤ rank b

/-- The classes in the order they are served: those that have waited 16 cycles, then the lower numbered. -/
def classOrder (x : Router) (out lane : Nat) : List Nat :=
  let late (k : Nat) : Bool := 16 ≤ tget 0 x.waits (classKey out lane k)
  [0, 1, 2].filter late ++ [0, 1, 2].filter (!late ·)

/-- Whether a packet that holds a lane for its class is refused downstream (R272, R300). -/
def holderRefused (x : Router) (out lane : Nat) (ms : List Move) : Bool :=
  ms.any fun m => m.kind.isNone && tget 0 x.holds (classKey out lane m.pkt.cls) == m.pkt.id

/-- The move a lane makes in a cycle, and whether a packet that is granted the lane is refused downstream. -/
def pick (x : Router) (out lane : Nat) (ms : List Move) : List Nat → Option Move × Bool
  | [] => (none, false)
  | k :: t =>
    let mine := chosenOrder (tget 0 x.served (classKey out lane k)) (ms.filter fun m => m.pkt.cls == k)
    match mine.find? fun m => m.kind.isSome with
    | some m => (some m, false)
    | none => let r := pick x out lane ms t
      (r.1, r.2 || mine != [])

/-- The lane's books after a cycle: who holds it, which input was served, and the cycles the classes have waited. -/
def Router.books (x : Router) (out lane : Nat) (ms : List Move) (m : Option Move) : Router :=
  let waits := [0, 1, 2].foldl (fun t k =>
    let moved := match m with | some m => m.pkt.cls == k | none => false
    let key := classKey out lane k
    tset 0 t key (if moved || !(ms.any fun m => m.pkt.cls == k) then 0 else tget 0 t key + 1)) x.waits
  match m with
  | none => { x with waits := waits }
  | some m =>
    let key := classKey out lane m.pkt.cls
    { x with waits := waits, holds := tset 0 x.holds key (if m.flit.last then 0 else m.pkt.id), served := tset 0 x.served key m.inp }

/-- A flit leaves its input. -/
def Router.take (x : Router) (inp : Nat) (f : Flit) : Router := x.setInput inp ((x.input inp).filter (· ≠ f))

/-! Flits move (R270, R300). -/

/-- An event is posted unless it is posted already. -/
def State.postOnce (s : State) (e : Instr) : State := if s.work.contains e then s else s.post e

/-- Every output link that a front flit of a router waits for has its next cycle. -/
def State.wakeRouter (s : State) (c : Nat) : State :=
  (s.router c).inq.foldl (fun s e => (fronts e.2).foldl (fun s f =>
    match s.packet f.pkt with
    | some p => s.postOnce (.packetHop c (outOf c p.dst p.cw))
    | none => s) s) s

/-- A flit takes a slot at an input; entering the drove lane there counts once for its packet and router (R272, R300). -/
def State.enterInput (s : State) (c inp : Nat) (f : Flit) (k : Kind) : State :=
  let bound := match s.packet f.pkt with | some p => p.bound f.hops | none => true
  let s := s.modRouter c fun x =>
    let y := x.setInput inp (x.input inp ++ [{ f with kind := k }])
    { y with drove := x.drove + (if inDrove k && !bound then 1 else 0) }
  if inDrove k then s.modPacket f.pkt fun p => { p with drove := p.drove ++ [f.hops] } else s

/-- Ejection at a site or socket port: the packet's event comes with its last flit, unless the packet was lost (R265). -/
def State.eject (s : State) (m : Move) : State :=
  if m.flit.last then
    let s : State := { s with packets := s.packets.filter fun p => p.id ≠ m.pkt.id }
    match m.pkt.ev with
    | some e => if m.pkt.lost then s else s.post e
    | none => s
  else s

/-- A flit crosses a link into a slot of the next router (R270, R272). -/
def State.cross (s : State) (c out lane : Nat) (m : Move) (k : Kind) : State :=
  let stile := !inDrove k && isStile c out && (!m.flit.crossed || !sameRing (m.inp / 32) out)
  let s := s.modRouter c fun x =>
    { x with
      flits := x.flits + (if out < 4 then 1 else 0)
      stile := x.stile + (if stile && m.flit.idx = 0 then 1 else 0) }
  let f := { m.flit with crossed := m.crossed, hops := m.flit.hops + 1 }
  let s := if f.last then s.modPacket f.pkt fun p => { p with tail := f.hops } else s
  (s.enterInput (across c out) (laneKey (farPort c out) lane) f k).wakeRouter (across c out)

/-- One cycle of an output lane. -/
def State.laneCycle (s : State) (c out lane : Nat) : State × Bool :=
  let ms := s.movesAt c out lane
  let x := s.router c
  let (m, refused) := pick x out lane ms (classOrder x out lane)
  if ms = [] then (s, false) else
    let s := s.modRouter c fun x => x.books out lane ms m
    match m with
    | none => (s, refused || holderRefused x out lane ms)
    | some m =>
      let s := s.modRouter c fun x => x.take m.inp m.flit
      (match m.kind with
        | some k => if out = 4 then s.eject m else s.cross c out lane m k
        | none => s, refused || holderRefused x out lane ms)

/-- The slot a SENDT came from. -/
def taggedSlot (m : Tagged) : SlotRef :=
  if m.sender < 2 ^ 16 then slotOfId m.sender
  else { place := .ctl (m.sender / 8 % 2 ^ 10) (m.sender % 8), k := (m.sender - 2 ^ 16) / 2 ^ 13 % 8 }

/-- The slot whose append or tagged message an event is: those that reach the I/O die in one cycle are taken in the order of their
sockets, then of their slot ids (R217, R250). -/
def rankedSlot : Instr → Option SlotRef
  | .replayAppend r => some r
  | .taggedMessage m => some (taggedSlot m)
  | _ => none

/-- Place among those that reach the I/O die in one cycle. -/
def arrivalRank (e : Instr) : Nat :=
  match rankedSlot e with
  | some r => socketOf r.place * 2 ^ 32 + slotId r
  | none => 0

/-- Appends and tagged messages that arrive in one cycle are taken in their order (R217, R250). -/
def State.sortArrivals (s : State) (before : Nat) : State :=
  let fresh := s.work.drop before
  let ranked (e : Instr) : Bool := (rankedSlot e).isSome
  { s with work := s.work.take before ++ fresh.filter (!ranked ·) ++ (fresh.filter ranked).mergeSort fun a b => arrivalRank a ≤ arrivalRank b }

/-- One cycle of an output link (R270, R272): each of its lanes sends a flit at most; whether a packet is refused downstream. -/
def State.linkCycle (s : State) (c out : Nat) : State × Bool :=
  let before := s.work.length
  let (s, stall) := (List.range (laneCount c out)).foldl (fun (e : State × Bool) lane =>
    let r := e.1.laneCycle c out lane
    (r.1, e.2 || r.2)) (s, false)
  (if c = ioNode ∧ out = 4 then s.sortArrivals before else s, stall)

/-- The outputs that front flits of a router wait for, in ascending order. -/
def State.wantedOuts (s : State) (c : Nat) : List Nat :=
  [0, 1, 2, 3, 4, 6].filter fun out => (s.router c).inq.any fun e => (fronts e.2).any fun f => match s.packet f.pkt with
    | some p => outOf c p.dst p.cw == out
    | none => false

/-- Whether an event is a cycle of a router. -/
def isCycleOf (c : Nat) : Instr → Bool
  | .packetHop r port => r == c && port != 5
  | _ => false

/-- One cycle of a router (R270, R272, R300): each of its output links has its cycle; a cycle in which a packet is refused downstream
is one stall, whatever the links. -/
def State.routerCycle (s : State) (c : Nat) : State :=
  let s : State := { s with work := s.work.filter (!isCycleOf c ·) }
  let (s, stall) := (s.wantedOuts c).foldl (fun (e : State × Bool) out =>
    let r := e.1.linkCycle c out
    (r.1, e.2 || r.2)) (s, false)
  let s := if stall then s.modRouter c fun x => { x with stall := x.stall + 1 } else s
  s.wakeRouter c

/-- A flit waits at the site port for a slot of the router's own input. -/
def State.injectFlit (s : State) (c : Nat) : State :=
  match (s.router c).inject with
  | [] => s
  | f :: rest =>
    let inp := laneKey 4 (f.pkt % laneCount c 4)
    let bound := match s.packet f.pkt with | some p => p.bound 0 | none => false
    match kindFor ((s.router c).input inp) false bound with
    | none => s.postOnce (.packetHop c 5)
    | some k =>
      let s := ((s.modRouter c fun x => { x with inject := rest }).enterInput c inp f k).wakeRouter c
      if rest = [] ∧ (s.site c).outbound = [] then s else s.postOnce (.packetHop c 5)

/-- Whether the way between two routers crosses the interposer (R265). -/
def overInterposer (src dst : Nat) : Bool := src != dst && !(onMesh src && onMesh dst && coreDie src == coreDie dst)
/-- Whether a packet travels on the interposer. -/
def NetPacket.leavesDie (p : NetPacket) : Bool := overInterposer p.src p.dst

/-- Flits of a packet of n payload bytes (R267): a header and 32 bytes each. -/
def meshFlits (n : Nat) : Nat := 1 + (n + 31) / 32

/-- A packet's flits wait to enter at its source router (R267, R268, R273). -/
def State.enterNet (s : State) (src dst cls : Nat) (cw : Bool) (bytes : Nat) (ev : Option Instr) : State :=
  let n := meshFlits bytes
  let p : NetPacket := { id := s.fresh, src := src, dst := dst, cls := cls, cw := cw, flits := n, ev := ev }
  let fs : List Flit := (List.range n).map fun i => { pkt := p.id, idx := i, last := i + 1 = n, kind := .vc0, crossed := false, hops := 0 }
  let s : State := { s.bump with packets := s.packets ++ [p] }
  (s.modRouter src fun x => { x with inject := x.inject ++ fs }).postOnce (.packetHop src 5)

/-- A packet with an event and a payload of some bytes travels from router to router (R267, R268, R273). -/
def State.route (s : State) (src dst cls : Nat) (cw : Bool) (bytes : Nat) (ev : Instr) : State :=
  if src = dst then s.post ev else s.enterNet src dst cls cw bytes (some ev)

/-! Traffic of accesses that are performed in one step (log 16): their packets travel as any others, and bring no event. -/

/-- A packet of a class with a payload of some bytes and no event: the networks alone change. -/
def State.transit (s : State) (src dst cls bytes : Nat) : State :=
  let t := if src = dst then s else s.enterNet src dst cls false bytes none
  { s with packets := t.packets, routers := t.routers, work := t.work, nextId := t.nextId }

/-- A request and its reply. -/
def State.exchange (s : State) (src dst cls request reply : Nat) : State := (s.transit src dst cls request).transit dst src cls reply

end Sys2Proof.Machine
end

