-- ==== Sys2Proof/Machine/Wire.lean ====
section
/-! DEFINITION. The fabric ports: packets as they are sent, sequence numbers, replay buffers, charges (R265, R274-R277, R282). -/
namespace Sys2Proof.Machine

/-! Bytes of numbers. -/

/-- Little-endian bytes of a number (R4). -/
def leBytes : Nat → Nat → List Byte
  | 0, _ => []
  | n + 1, x => BitVec.ofNat 8 x :: leBytes n (x / 256)
/-- Number of little-endian bytes (R4). -/
def ofLe : List Byte → Nat
  | [] => 0
  | b :: t => b.toNat + 256 * ofLe t

/-! Accounts (R282). -/

/-- Adding to counter i of an account. -/
def State.charge (s : State) (acct i n : Nat) : State :=
  s.modIod fun d => { d with accounts := tset 0 d.accounts (8 * acct + i) (tget 0 d.accounts (8 * acct + i) + BitVec.ofNat 64 n) }

/-! Ports (R276, R277). -/

/-- Fabric ports that are up with a session key (R277), lowest first. -/
def Iod.portUp (d : Iod) (p : Nat) : Bool := (tget {} d.ports p).state == 2

/-- Port of a device (R276): PORT when it is up, else ALT when valid; none without an entry. -/
def Iod.route (d : Iod) (dev : Nat) : Option Nat :=
  match (List.range 1024).find? fun i => let e := tget 0 d.devt i; e.getLsbD 16 && (e.extractLsb' 0 16).toNat == dev with
  | none => none
  | some i =>
    let e := tget 0 d.devt i
    let p := (e.extractLsb' 17 7).toNat
    if !d.portUp p && e.getLsbD 31 then some ((e.extractLsb' 24 7).toNat) else some p

/-- Flits of a fabric packet with n payload bytes: 64 bytes each, header and tag included (R274). -/
def fabricFlits (n : Nat) : Nat := (32 + n + 16 + 63) / 64

/-- Flits a port's replay buffer holds (R277). -/
def replayFlits (ps : List (Nat × Packet)) : Nat := (ps.map fun p => fabricFlits p.2.payload.length).foldl (· + ·) 0

/-- The newest packets of a replay buffer of 256 flits (R277). -/
def trimReplay : List (Nat × Packet) → List (Nat × Packet)
  | [] => []
  | p :: t => if replayFlits (p :: t) ≤ 256 then p :: t else trimReplay t

/-- A port of the fabric. -/
def Iod.port (d : Iod) (p : Nat) : Port := tget {} d.ports p
/-- Changing a port. -/
def Iod.setPort (d : Iod) (p : Nat) (x : Port) : Iod := { d with ports := tset {} d.ports p x }

/-! Bytes of a packet (R274). -/

/-- One bit of the header's CRC-16. -/
def crc16Bit (c : BitVec 16) (b : Bool) : BitVec 16 := if c.getLsbD 15 != b then (c <<< 1) ^^^ 0x1021 else c <<< 1
/-- The CRC-16 of bytes: polynomial 0x1021, initial value 0xFFFF; each byte from its top bit (DESIGN CHOICE, log 74). -/
def crc16 (bs : List Byte) : BitVec 16 :=
  bs.foldl (fun c b => ((List.range 8).map fun i => b.getLsbD (7 - i)).foldl crc16Bit c) 0xFFFF

/-- Bits [239:0] of a header. -/
def packetFields (p : Packet) : Nat :=
  p.dst % 2 ^ 16 + p.src % 2 ^ 16 * 2 ^ 16 + p.sock % 2 ^ 5 * 2 ^ 32 + p.cls % 2 ^ 3 * 2 ^ 37 + p.owner % 2 ^ 16 * 2 ^ 40 +
    p.op % 2 ^ 6 * 2 ^ 56 + p.tag % 2 ^ 32 * 2 ^ 64 + p.len % 2 ^ 16 * 2 ^ 96 + p.addr % 2 ^ 48 * 2 ^ 128 +
    p.asub % 2 ^ 16 * 2 ^ 176 + p.seq % 2 ^ 16 * 2 ^ 192

/-- The 32 bytes of a header, its CRC last. -/
def packetHeader (p : Packet) : List Byte :=
  let bs := leBytes 30 (packetFields p)
  bs ++ leBytes 2 (crc16 bs).toNat

/-- The bytes of a packet sent under a port's session key with a packet count as the nonce: header in clear, payload sealed,
tag, padding; without a key the payload is in clear (log 14). -/
def packetBytes (p : Packet) (port session count : Nat) : List Byte :=
  let n := p.payload.length
  let body := if session = 0 then p.payload else (Config.gcmPayload port session count (packetHeader p) p.payload ++ List.replicate n 0).take n
  let tag := if session = 0 then 0 else (Config.gcmTag port session count (packetHeader p) p.payload).toNat
  packetHeader p ++ body ++ leBytes 16 tag ++ List.replicate (64 * fabricFlits n - (32 + n + 16)) 0

/-- Whether a port carries a packet (R277): an up port any, a port without a session key only OP 11. -/
def Iod.carries (d : Iod) (port : Nat) (p : Packet) : Bool := d.portUp port || ((d.port port).state == 3 && p.op == 11)

/-- A packet on the wire of a port: its flits are charged (R282) and its nonce is the next (R274). A packet that the port does not
carry stays in the replay buffer. -/
def State.wire (s : State) (port acct : Nat) (pk : Packet) : State :=
  if s.iod.carries port pk then
    let x := s.iod.port port
    let w : Wired := { port := port, packet := pk, bytes := packetBytes pk port (if x.state = 2 then x.session else 0) x.count }
    (s.modIod fun d => { d.setPort port { x with count := x.count + 1 } with sent := d.sent ++ [w] }).charge acct 4
      (64 * fabricFlits pk.payload.length)
  else s

/-- A packet leaves on a port: it takes the port's sequence number and enters the replay buffer (R274, R277). -/
def State.emit (s : State) (port acct : Nat) (pk : Packet) : State :=
  let x := s.iod.port port
  let pk := { pk with seq := x.seq % 2 ^ 16, src := s.iod.devid.toNat % 2 ^ 16 }
  let x := { x with seq := (x.seq + 1) % 2 ^ 16, replay := trimReplay (x.replay ++ [(acct, pk)]) }
  (s.modIod fun d => d.setPort port x).wire port acct pk

end Sys2Proof.Machine
end

