-- ==== Sys2Proof/Machine/Ops.lean ====
section
/-! DEFINITION. Named operations over the state: registers, memory keys and bytes, placement and translation,
messages, and taking a trap with its return (R126-R145, R259-R263, R290, R291). -/
namespace Sys2Proof.Machine

/-! Rectangles (R14, R15). -/

/-- LO corner. -/
def rectLo (w : Word) : Nat := (w.extractLsb' 0 13).toNat
/-- HI corner. -/
def rectHi (w : Word) : Nat := (w.extractLsb' 16 13).toNat
/-- A rectangle word of cores is well formed (R14). -/
def rectOk (w : Word) : Bool :=
  w.extractLsb' 13 3 == 0 && w.extractLsb' 29 3 == 0 && coreDie (rectLo w) == coreDie (rectHi w) &&
  coreRow (rectLo w) ≤ coreRow (rectHi w) && coreCol (rectLo w) ≤ coreCol (rectHi w)
/-- Whether a core lies in a rectangle (R14). -/
def inRect (w : Word) (c : Nat) : Bool :=
  coreDie c == coreDie (rectLo w) && coreRow (rectLo w) ≤ coreRow c && coreRow c ≤ coreRow (rectHi w) &&
  coreCol (rectLo w) ≤ coreCol c && coreCol c ≤ coreCol (rectHi w)
/-- The cores of a rectangle, in ascending order. -/
def rectCores (w : Word) : List Nat :=
  (List.range (coreRow (rectHi w) + 1 - coreRow (rectLo w))).flatMap fun i =>
    (List.range (coreCol (rectHi w) + 1 - coreCol (rectLo w))).map fun j =>
      coreId (coreDie (rectLo w)) (coreRow (rectLo w) + i) (coreCol (rectLo w) + j)
/-- Whether two rectangles share a core. -/
def rectsMeet (a b : Word) : Bool := (rectCores a).any (inRect b)

/-! Registers (R70). -/

/-- g registers; g0 reads zero. -/
def Slot.getG (x : Slot) (n : R4) : Dword := if n = 0 then 0 else tget 0 x.g n.toNat
/-- Writing a g register; g0 ignores writes. -/
def Slot.setG (x : Slot) (n : R4) (v : Dword) : Slot := if n = 0 then x else { x with g := tset 0 x.g n.toNat v }
/-- v registers. -/
def Slot.getV (x : Slot) (n : R4) : Vec := tget 0 x.v n.toNat
/-- Writing a v register. -/
def Slot.setV (x : Slot) (n : R4) (v : Vec) : Slot := { x with v := tset 0 x.v n.toNat v }
/-- m registers; m0 reads all ones. -/
def Slot.getM (x : Slot) (n : BitVec 3) : Dword := if n = 0 then -1 else tget 0 x.m n.toNat
/-- Writing an m register; m0 ignores writes. -/
def Slot.setM (x : Slot) (n : BitVec 3) (v : Dword) : Slot := if n = 0 then x else { x with m := tset 0 x.m n.toNat v }
/-- Predicates; q0 reads true. -/
def Slot.getQ (x : Slot) (n : R4) : Bool := n == 0 || x.q.getLsbD n.toNat
/-- Writing a predicate; q0 ignores writes. -/
def Slot.setQ (x : Slot) (n : R4) (b : Bool) : Slot :=
  if n = 0 then x else
    { x with q := (x.q &&& ~~~((1 : BitVec 16) <<< n.toNat)) ||| ((BitVec.ofNat 16 b.toNat) <<< n.toNat) }
/-- Segment registers s1-s7 (R126). -/
def Slot.getS (x : Slot) (n : BitVec 3) : BitVec 128 := tget 0 x.segs n.toNat
/-- Writing a segment register. -/
def Slot.setS (x : Slot) (n : BitVec 3) (v : BitVec 128) : Slot := { x with segs := tset 0 x.segs n.toNat v }

/-! Memory keys: one number space for every byte the part holds. -/

/-- DRAM: die offset o of memory die m (R137). -/
def dramKey (m o : Nat) : Nat := m * 2 ^ 38 + o
/-- Keys of DRAM lie below this. -/
def dramEnd : Nat := 2 ^ 42
/-- Byte of a bank (R100). -/
def bankKey (b o : Nat) : Nat := 2 ^ 42 + b * 2 ^ 16 + o
/-- Byte of a core store, by place (R9, R218, R286). -/
def storeKey (p o : Nat) : Nat := 2 ^ 43 + p * 2 ^ 16 + o
/-- Byte of a carousel's pool: bank b of die d (R218). -/
def poolKey (d b o : Nat) : Nat := 2 ^ 44 + d * 2 ^ 22 + b * 2 ^ 16 + o
/-- Byte of a control core's private SRAM, windows 0-14 (R286). -/
def sramKey (p o : Nat) : Nat := 2 ^ 45 + p * 2 ^ 20 + o
/-- Byte of a segment descriptor store (R127, R288). -/
def segStoreKey (p o : Nat) : Nat := 2 ^ 46 + p * 2 ^ 11 + o
/-- The unit a poison mark covers: a DRAM line (R144) or a bank word (R122). -/
def poisonKey (k : Nat) : Nat := if k < dramEnd then k / 64 * 64 else k / 8 * 8
/-- Whether a key is a DRAM byte. -/
def isDram (k : Nat) : Bool := k < dramEnd

/-! Bytes. -/

/-- A byte of memory; a byte nothing has written reads zero (log 1). -/
def State.byte (s : State) (k : Nat) : Byte := tget 0 s.mem k
/-- Writing a byte. -/
def State.setByte (s : State) (k : Nat) (b : Byte) : State := { s with mem := tset 0 s.mem k b }
/-- Reading a run of bytes. -/
def State.bytes (s : State) (k : Nat) : Nat → List Byte
  | 0 => []
  | n + 1 => s.byte k :: s.bytes (k + 1) n
/-- Writing a run of bytes in a memory. -/
def putBytes (m : List Host.Cell) : Nat → List Byte → List Host.Cell
  | _, [] => m
  | k, b :: t => putBytes (tset 0 m k b) (k + 1) t
/-- Writing a run of bytes. -/
def State.setBytes (s : State) (k : Nat) (bs : List Byte) : State := { s with mem := putBytes s.mem k bs }
/-- The canonical form of memory: rising keys, no listed byte equal to zero (log 1). -/
def Memory.wf (m : List Host.Cell) : Bool := twf 0 m
/-- Key slot and line under which a DRAM byte is written (R145), as one number; 0 is none. -/
def dramTag (key pa : Nat) : Nat := key * 2 ^ 42 + pa / 64 + 1
/-- A DRAM byte read under a tag: bytes written under another key or line carry no information (R145, log 10). -/
def State.tagByte (s : State) (k tag i : Nat) : Byte :=
  let t := tget 0 s.tags k
  if t = 0 ∨ t = tag ∨ tag = 0 then s.byte k else Config.freeByte (s.draws + i)
/-- Whether reading a piece meets bytes of another key. -/
def State.foreign (s : State) (p : Piece) : Bool :=
  p.tag != 0 && (List.range p.n).any fun i => let t := tget 0 s.tags (p.key + i); t != 0 && t != p.tag
/-- The bytes of a piece. -/
def State.readPiece (s : State) (p : Piece) : List Byte :=
  if p.tag = 0 then s.bytes p.key p.n
  else (List.range p.n).map fun i => s.tagByte (p.key + i) p.tag (p.pos + i)
/-- Tagging a run of DRAM bytes. -/
def tagRun (t : Table Nat) (k tag : Nat) : Nat → Table Nat
  | 0 => t
  | n + 1 => tagRun (tset 0 t k tag) (k + 1) tag n
/-- Writing the bytes of a piece, under its key (R145). -/
def State.writePiece (s : State) (p : Piece) (data : List Byte) : State :=
  let s := s.setBytes p.key ((data.drop p.pos).take p.n)
  if p.tag = 0 then s else { s with tags := tagRun s.tags p.key p.tag p.n }
/-- Whether a byte lies in a poisoned word or line (R122, R144). -/
def State.poisoned (s : State) (k : Nat) : Bool := tget false s.poison (poisonKey k)
/-- Setting or clearing a poison mark. -/
def State.setPoison (s : State) (k : Nat) (b : Bool) : State := { s with poison := tset false s.poison (poisonKey k) b }
/-- Poison units that a run touches. -/
def poisonUnits (k n : Nat) : List Nat :=
  let u := if k < dramEnd then 64 else 8
  (List.range ((k + n - 1) / u + 1 - k / u)).map fun i => (k / u + i) * u
/-- Whether a piece reads poison. -/
def State.piecePoisoned (s : State) (p : Piece) : Bool := p.n != 0 && (poisonUnits p.key p.n).any s.poisoned
/-- The marks that a store of a run clears: units it covers whole (R122, R144). -/
def wholeUnits (k n : Nat) : List Nat :=
  let u := if k < dramEnd then 64 else 8
  (poisonUnits k n).filter fun j => k ≤ j && j + u ≤ k + n
/-- Whether the pieces of one store cover a unit whole, together (R122, R144). -/
def unitCovered (ps : List Piece) (j : Nat) : Bool :=
  (List.range (if j < dramEnd then 64 else 8)).all fun i => ps.any fun p => p.key ≤ j + i && j + i < p.key + p.n
/-- Units that the pieces of a store touch. -/
def unitsOf (ps : List Piece) : List Nat := ps.flatMap fun p => if p.n = 0 then [] else poisonUnits p.key p.n
/-- Whether a piece of a store meets poison that the store does not cover (R122, R144). -/
def State.storePoisoned (s : State) (ps : List Piece) (p : Piece) : Bool :=
  s.poison != [] && (unitsOf [p]).any fun j => s.poisoned j && !unitCovered ps j
/-- A write of a run leaves no error in the units it covers. -/
def State.rewriteRun (s : State) (k n : Nat) : State :=
  if s.wrong = [] then s else { s with wrong := (wholeUnits k n).foldl (fun t u => tset 0 t u 0) s.wrong }
/-- Clearing the marks a store covers. -/
def State.clearPoison (s : State) (p : Piece) : State :=
  ((wholeUnits p.key p.n).foldl (fun s j => s.setPoison j false) s).rewriteRun p.key p.n
/-- Clearing the marks that the pieces of a store cover together. -/
def State.clearCovered (s : State) (ps : List Piece) : State :=
  if s.poison = [] ∧ s.wrong = [] then s
  else ((unitsOf ps).filter (unitCovered ps)).foldl (fun s j => ({ s with wrong := tset 0 s.wrong j 0 } : State).setPoison j false) s
/-- A store of pieces is performed (R122, R144, R145). -/
def State.storePieces (s : State) (ps : List Piece) (data : List Byte) : State :=
  (ps.foldl (fun s p => s.writePiece p data) s).clearCovered ps
/-- Channel of a byte of a memory die (R137, R138): blocks of 4 KiB, of which each group of 48 takes one per channel. -/
def dramChannel (key : Nat) : Nat := key % 2 ^ 38 / 2 ^ 12 % 48
/-- Bits in error of a unit that its check bits correct (R120, R144): one in a word of an attached bank or of a memory held as
one, two in a word of a detached bank. -/
def State.corrects (s : State) (k : Nat) : Nat :=
  if isDram k then Config.dramCorrects
  else if bankKey 0 0 ≤ k ∧ k < storeKey 0 0 then (if (s.bank ((k - bankKey 0 0) / 2 ^ 16)).att then 1 else 2)
  else 1
/-- Bits of a unit fail (R122, R144): more than its code corrects poison it. -/
def State.strike (s : State) (k n : Nat) : State :=
  let u := poisonKey k
  let e := tget 0 s.wrong u + n
  if e ≤ s.corrects u then { s with wrong := tset 0 s.wrong u e }
  else { s with wrong := tset 0 s.wrong u 0, poison := tset false s.poison u true }
/-- A corrected error is counted (R122, R144): in BSTAT.CE, which saturates, or for the channel. -/
def State.countCorrected (s : State) (u : Nat) : State :=
  if isDram u then s.modMd (u / 2 ^ 38) fun x =>
    { x with corrected := tset 0 x.corrected (dramChannel u) (tget 0 x.corrected (dramChannel u) + 1) }
  else if bankKey 0 0 ≤ u ∧ u < storeKey 0 0 then s.modBank ((u - bankKey 0 0) / 2 ^ 16) fun b =>
    { b with ce := if b.ce = 255 then 255 else b.ce + 1 }
  else s
/-- A read corrects a unit and writes it back (R122, R144). -/
def State.correctUnit (s : State) (u : Nat) : State :=
  if tget 0 s.wrong u = 0 then s else ({ s with wrong := tset 0 s.wrong u 0 } : State).countCorrected u
/-- A read of a run corrects the units it touches. -/
def State.correctRun (s : State) (k n : Nat) : State :=
  if n = 0 ∨ s.wrong = [] then s else (poisonUnits k n).foldl State.correctUnit s
/-- What a read of pieces changes: draws, when it meets another key, and errors corrected. -/
def State.drawPieces (s : State) (ps : List Piece) : State :=
  let s := if ps.any s.foreign then s.drawn 4096 else s
  if s.wrong = [] then s else ps.foldl (fun s p => s.correctRun p.key p.n) s
/-- Reading a little-endian number at a key. -/
def State.num (s : State) (k n : Nat) : Nat := ofLe (s.bytes k n)
/-! Physical addresses (R20, R137). -/

/-- DRAM addresses end here. -/
def dramTop : Nat := 0x018000000000
/-- Placement HASH (R137). -/
def hashKey (pa : Nat) : Nat :=
  dramKey ((pa / 2 ^ 12 % 8) ^^^ (pa / 2 ^ 15 % 8) ^^^ (pa / 2 ^ 18 % 8) ^^^ (pa / 2 ^ 21 % 8))
    (pa / 2 ^ 15 * 2 ^ 12 + pa % 2 ^ 12)
/-- Key of a byte of a page with a placement code, seen from a die (R137). -/
def placeByte (place near die pa : Nat) : Nat :=
  match place with
  | 0 => hashKey pa
  | 1 => dramKey near pa
  | _ => dramKey die pa
/-- An MMIO address (R20). -/
def isMmio (pa : Nat) : Bool := 0xF00000000000 ≤ pa && pa < 0xF11000000000
/-- Whether n bytes from a physical address on all lie in DRAM (R20). -/
def inDram (pa n : Nat) : Bool := decide (pa + n ≤ dramTop)
/-- The part's own read of DRAM by physical address under a key slot, placed as HASH (R145, log 9); where no DRAM is, the bytes
are open (log 80). -/
def State.keyBytes (s : State) (key pa n : Nat) : List Byte :=
  (List.range n).map fun i =>
    if pa + i < dramTop then s.tagByte (hashKey (pa + i)) (dramTag key (pa + i)) i else Config.freeByte (s.draws + i)
/-- The same under key slot 0 (R288). -/
def State.physBytes (s : State) (pa n : Nat) : List Byte := s.keyBytes 0 pa n
/-- Reading a number by physical address. -/
def State.physNum (s : State) (pa n : Nat) : Nat := ofLe (s.physBytes pa n)
/-- Lines of DRAM that n bytes from a physical address touch. -/
def linesAt (pa n : Nat) : Nat := if n = 0 then 0 else (pa + n - 1) / 64 + 1 - pa / 64
/-- The part's own reads and writes of DRAM go to account 0 (R282). -/
def State.chargeLines (s : State) (write : Bool) (pa n : Nat) : State := s.charge 0 (if write then 3 else 2) (64 * linesAt pa n)
/-- The packets of the part's own access to DRAM: requests and replies of at most 256 bytes between the router of the unit and the
memory dies (R271, R272, log 16). -/
def State.lineTraffic (s : State) (node : Nat) (write : Bool) (pa n : Nat) : State :=
  (List.range ((n + 255) / 256)).foldl (fun s i =>
    let k := Nat.min 256 (n - 256 * i)
    s.exchange node (memNode (hashKey (pa + 256 * i) / 2 ^ 38)) 2 (if write then k else 0) (if write then 0 else k)) s
/-- An access of a unit of the part to DRAM by physical address is charged and sends its packets. -/
def State.ownLines (s : State) (node : Nat) (write : Bool) (pa n : Nat) : State :=
  (s.lineTraffic node write pa n).chargeLines write pa n
/-- Bytes of DRAM by physical address under a key slot; where no DRAM is, nothing is written (log 80). -/
def State.physPut (s : State) (key pa : Nat) : List Byte → State
  | [] => s
  | b :: t =>
    let k := hashKey pa
    State.physPut (if pa < dramTop then { s with mem := tset 0 s.mem k b, tags := tset 0 s.tags k (dramTag key pa) } else s) key (pa + 1) t
/-- A unit of the part writes DRAM by physical address under a key slot (R282). -/
def State.physWrite (s : State) (node key pa : Nat) (bs : List Byte) : State := (s.physPut key pa bs).ownLines node true pa bs.length

/-! Segments and translation (R126-R145, R286-R288). -/

/-- BASE (R126). -/
def segBase (d : BitVec 128) : Nat := (d.extractLsb' 0 48).toNat
/-- DEV. -/
def segDev (d : BitVec 128) : Nat := (d.extractLsb' 48 16).toNat
/-- LIMIT, in 64-byte units. -/
def segLimit (d : BitVec 128) : Nat := (d.extractLsb' 64 32).toNat
/-- TADDR of a segment fault: BASE + off modulo 2^64 (R130). -/
def segAddr (d : BitVec 128) (off : Dword) : Dword := BitVec.ofNat 64 (segBase d) + off
/-- Rights an access needs of a segment (R130, R290). -/
def segRights (d : BitVec 128) : Acc → Bool
  | .load | .copyRead => d.getLsbD 96
  | .store | .copyWrite => d.getLsbD 97
  | .atomic => d.getLsbD 96 && d.getLsbD 97
  | .fetch => d.getLsbD 98
/-- The checks of R130. -/
def segOk (d : BitVec 128) (off : Dword) (size : Nat) (acc : Acc) : Bool :=
  d.getLsbD 99 && off.toNat + size ≤ 64 * segLimit d && segRights d acc

/-- Bits of a leaf (R133). -/
def leafSize (e : Dword) : Nat := (e.extractLsb' 4 2).toNat
/-- log2 of the bytes a leaf maps (R132). -/
def leafShift (e : Dword) : Nat := match leafSize e with | 1 => 16 | 2 => 21 | _ => 29
/-- Placement code. -/
def leafPlace (e : Dword) : Nat := (e.extractLsb' 6 2).toNat
/-- Key slot. -/
def leafKey (e : Dword) : Nat := (e.extractLsb' 16 8).toNat
/-- NEAR. -/
def leafNear (e : Dword) : Nat := (e.extractLsb' 24 3).toNat
/-- Physical address of the page. -/
def leafBase (e : Dword) : Nat := (e.extractLsb' 32 32).toNat * 2 ^ 16
/-- Whether a leaf grants an access (R133). -/
def leafRights (e : Dword) : Acc → Bool
  | .load | .copyRead => e.getLsbD 1
  | .store | .copyWrite => e.getLsbD 2
  | .atomic => e.getLsbD 1 && e.getLsbD 2
  | .fetch => e.getLsbD 3
/-- Whether an access writes. -/
def Acc.writes : Acc → Bool
  | .store | .atomic | .copyWrite => true
  | _ => false
/-- The TLB entry that maps an address of an owner (R135). -/
def Die.lookup (d : Die) (owner va : Nat) : Option TlbEntry :=
  d.tlb.find? fun e => e.owner == owner && e.page == va / 2 ^ leafShift e.leaf

/-- Where the bytes of an access are. -/
inductive Spot where
  /-- Bytes from a memory key on, under a DRAM tag. -/
  | run (key tag : Nat)
  | mmio (pa : Nat)
  | remote (dev : Nat) (va : Dword)
  /-- The boot ROM (R289). -/
  | rom (off : Nat)
  /-- A carousel method's state block (R219). -/
  | block (addr : Nat)
  deriving DecidableEq, Repr

/-- What resolving an access answers: a place, a trap with TADDR, the SEGV of a window that withholds the right (R103), which a
relaxed access takes later (R333), or a park. -/
inductive Look where
  | at (p : Spot)
  | trap (cause : Nat) (taddr : Dword)
  | denied (taddr : Dword)
  | park (p : Park)
  deriving DecidableEq, Repr

/-! Trap causes (R259). -/

/-- ILL. -/
def cILL : Nat := 0x01
/-- ORPH. -/
def cORPH : Nat := 0x02
/-- PRIV. -/
def cPRIV : Nat := 0x03
/-- IDZ. -/
def cIDZ : Nat := 0x04
/-- FPX. -/
def cFPX : Nat := 0x05
/-- SEGV. -/
def cSEGV : Nat := 0x06
/-- WDET. -/
def cWDET : Nat := 0x07
/-- SHAL. -/
def cSHAL : Nat := 0x08
/-- ELAL. -/
def cELAL : Nat := 0x09
/-- PORT. -/
def cPORT : Nat := 0x0A
/-- STKO. -/
def cSTKO : Nat := 0x0B
/-- RWR. -/
def cRWR : Nat := 0x0C
/-- RAI. -/
def cRAI : Nat := 0x0D
/-- POIS. -/
def cPOIS : Nat := 0x0E
/-- BANK. -/
def cBANK : Nat := 0x0F
/-- SWT. -/
def cSWT : Nat := 0x10

/-- Translation of a virtual address on a die (R135, R137, R139, R142, R143). A hit whose leaf lacks the right parks
with kind RIGHTS (log 12). -/
def State.translate (s : State) (d owner : Nat) (va : Nat) (acc : Acc) : Look :=
  match (s.die d).lookup owner va with
  | none => .park (.tlb va acc)
  | some e =>
    let pa := leafBase e.leaf + va % 2 ^ leafShift e.leaf
    if e.leaf.getLsbD 8 then .park (.migrating va acc)
    else if !leafRights e.leaf acc then .park (.fault va acc .rights)
    else if leafPlace e.leaf = 2 ∧ acc.writes then .park (.fault va acc .dupw)
    else .at (.run (placeByte (leafPlace e.leaf) (leafNear e.leaf) d pa) (dramTag (leafKey e.leaf) pa))

/-- An access by physical address (R20, R21, R288). -/
def physSpot (pa : Nat) (taddr : Dword) : Look :=
  if pa < dramTop then .at (.run (hashKey pa) (dramTag 0 pa))
  else if isMmio pa then .at (.mmio pa)
  else .trap cSEGV taddr

/-- Entry of a window (R102). -/
def State.entry (s : State) (core w : Nat) : Entry := tget {} (s.site core).attach w
/-- Writing an entry. -/
def State.setEntry (s : State) (core w : Nat) (e : Entry) : State :=
  s.modSite core fun x => { x with attach := tset {} x.attach w e }

/-- A HOVR by another slot of the core under way from this window (R112): accesses to it park. -/
def State.handing (s : State) (core w : Nat) : Bool :=
  (coreSlots core).any fun r =>
    match (s.slot r).status with
    | .parked (.hovr w' ..) => w' == w
    | _ => false

/-- The outcome of R103 for an access to a local address of a mesh core. A bank whose site is marked unusable while it is
attached goes on answering here (log 81). -/
def State.windowLook (s : State) (core addr : Nat) (acc : Acc) : Look :=
  let w := addr / 2 ^ 16
  let e := s.entry core w
  let a := BitVec.ofNat 64 addr
  if e.att then
    if e.land || s.handing core w then .park (.window w)
    else if (acc.writes && !e.wr) || ((!acc.writes || acc == .atomic) && !e.rd) then .denied a
    else .at (.run (bankKey e.bank (addr % 2 ^ 16)) 0)
  else if e.clm then .park (.window w)
  else if e.fault then .trap cWDET a
  else .park (.window w)

/-- Size in bytes of an object's state block (R215). -/
def Object.blockBytes (o : Object) : Nat := 64 * (o.w2.extractLsb' 0 13).toNat

/-- An access through s0 (R101, R131, R219, R286, R289). -/
def State.localLook (s : State) (r : SlotRef) (addr : Dword) (size : Nat) (acc : Acc) (al : Nat) : Look :=
  match r.place with
  | .mesh c =>
    if addr.toNat + size > 2 ^ 20 then .trap cSEGV addr
    else if addr.toNat % al ≠ 0 then .trap cSEGV addr
    else s.windowLook c addr.toNat acc
  | .ctl sock n =>
    if addr.toNat + size > 2 ^ 20 then .trap cSEGV addr
    else if addr.toNat % al ≠ 0 then .trap cSEGV addr
    else if addr.toNat < 15 * 2 ^ 16 then .at (.run (sramKey (placeKey r.place) addr.toNat) 0)
    else if sock = 0 ∧ n = 0 ∧ !s.iod.romOff ∧ !acc.writes then .at (.rom (addr.toNat % 2 ^ 16))
    else .at (.run (storeKey (placeKey r.place) (addr.toNat % 2 ^ 16)) 0)
  | .carousel _ =>
    match (s.slot r).method with
    | none => .trap cSEGV addr
    | some m =>
      if addr.toNat + size > 2 ^ 20 then .trap cSEGV addr
      else if addr.toNat % al ≠ 0 then .trap cSEGV addr
      else if addr.toNat + size > (s.obj m.obj).blockBytes then .trap cSEGV addr
      else if acc.writes ∧ m.ro then .trap cSEGV addr
      else .at (.block addr.toNat)

/-- An access through s1-s7 (R130, R131, R288); `al` is the alignment in bytes. -/
def State.segLook (s : State) (r : SlotRef) (d : BitVec 128) (off : Dword) (size : Nat) (acc : Acc) (al : Nat) : Look :=
  let va := segAddr d off
  if isCarousel r.place then .trap cSEGV va
  else if !segOk d off size acc then .trap cSEGV va
  else if va.toNat % al ≠ 0 then .trap cSEGV va
  else if segDev d ≠ 0 then .at (.remote (segDev d) va)
  else if d.getLsbD 100 then physSpot va.toNat va
  else match dieOf r.place with
    | none => .trap cSEGV va
    | some die => s.translate die (s.slot r).owner.toNat va.toNat acc

/-- An access through a segment number (R101, R130, R131). -/
def State.look (s : State) (r : SlotRef) (sg : BitVec 3) (off : Dword) (size : Nat) (acc : Acc) (al : Nat) : Look :=
  if sg = 0 then s.localLook r off size acc al else s.segLook r ((s.slot r).getS sg) off size acc al

/-- Address that TADDR names for an access (R130, R131). -/
def State.faultAddr (s : State) (r : SlotRef) (sg : BitVec 3) (off : Dword) : Dword :=
  if sg = 0 then off else segAddr ((s.slot r).getS sg) off

/-! Page-fault records (R140) and duty events (R292-R294). -/

/-- Code of PFQH.KIND. -/
def FaultKind.code : FaultKind → Nat
  | .seg => 0 | .miss => 1 | .rights => 2 | .dupw => 3 | .noroot => 4 | .poison => 5 | .remote => 6 | .link => 7
/-- Code of PFQH.ACC. -/
def Acc.code : Acc → Nat
  | .load => 0 | .store => 1 | .atomic => 2 | .fetch => 3 | .copyRead => 4 | .copyWrite => 5
/-- A record (R140). -/
def pfqRecord (id : Nat) (copy : Bool) (kind : FaultKind) (acc : Acc) (owner va : Nat) : PfqRecord :=
  { h := BitVec.ofNat 64 (id % 2 ^ 16 + copy.toNat * 2 ^ 16 + kind.code * 2 ^ 17 + acc.code * 2 ^ 20 +
      owner * 2 ^ 24 + 2 ^ 63)
    v := BitVec.ofNat 64 (va % 2 ^ 48) }

/-- Messages of a mailbox. -/
def Site.mail (x : Site) (j : Nat) : List Message := tget [] x.mb j
/-- Messages waiting for a mailbox. -/
def Site.waiting (x : Site) (j : Nat) : List Message := tget [] x.mbWait j

/-- Function bit that a duty code belongs to (R292, R293); code 3 has none. -/
def dutyFunction (code : Nat) (copy : Bool) : Option Nat :=
  match code with
  | 1 => some (if copy then 1 else 0)
  | 2 => some 2
  | 4 => some 3
  | 5 => some 6
  | 6 => some 5
  | _ => none

/-- Header of a duty message (R292). -/
def dutyHeader (code socket : Nat) : Dword := BitVec.ofNat 64 (0x0A + code * 2 ^ 8 + socket * 2 ^ 16)

/-- A message that the part itself posts, from a router to a mailbox of a site: it keeps the order of the events (R203), and its
flits are counted (R271, R272); a notice travels in class 1. -/
def State.partMail (s : State) (src site owner mb : Nat) (m : Message) (cls : Nat := 0) : State :=
  (s.transit src (nodeOfKey site) cls 16).post (.messageArrival site owner mb m none)

/-- Posting a duty message to mb0 of CC0 of a socket (R292). -/
def State.dutyMessage (s : State) (dest code socket : Nat) (payload : Dword) : State :=
  s.partMail (socketNode socket) (placeKey (.ctl dest 0)) 0 0 { header := dutyHeader code socket, payload := payload }

/-- A duty event (R292): to Penvis, or to the function's host as OP 12 while the function is host-assisted (R293). -/
def State.duty (s : State) (dest code socket : Nat) (payload : Dword) (copy : Bool) : State :=
  match dutyFunction code copy with
  | none => s.dutyMessage dest code socket payload
  | some f =>
    let host := (tget 0 s.iod.dutyHost f).toNat % 2 ^ 16
    let split := code == 1 && s.iod.duty.getLsbD 0 != s.iod.duty.getLsbD 1
    if !s.iod.duty.getLsbD f || split then s.dutyMessage dest code socket payload
    else match s.iod.route host with
      | none => s.dutyMessage dest code socket payload
      | some p =>
        let n := tget 0 s.iod.eventSeq p + 1
        let ev : DutyEvent := { f := f, code := code, socket := socket, payload := payload, port := p, seq := n, host := host }
        let body := leBytes 8 (1 + f * 2 ^ 8 + code * 2 ^ 16 + socket * 2 ^ 24 + n * 2 ^ 32) ++
          leBytes 8 payload.toNat ++ leBytes 8 (dutyHeader code socket).toNat ++ List.replicate 40 0
        let pk : Packet :=
          { dst := host, src := 0, sock := 0, cls := 0, owner := 0, op := 12, tag := 0, addr := 0, asub := 0, len := 64, seq := 0, payload := body }
        (s.modIod fun d => { d with events := d.events ++ [ev], eventSeq := tset 0 d.eventSeq p n }).emit p 0 pk

/-- Posting a page-fault record: it waits in the port while the queue holds 256 (R140); a queue that was empty raises duty
event 1 (R292). -/
def State.pfqPost (s : State) (d : Nat) (rec : PfqRecord) : State :=
  let x := s.die d
  if x.pfq.length ≥ 256 then s.modDie d fun x => { x with pfqWait := x.pfqWait ++ [rec] }
  else
    let s' := s.modDie d fun x => { x with pfq := x.pfq ++ [rec] }
    if x.pfq = [] then s'.duty (1 + d) 1 (1 + d) 0 (rec.h.getLsbD 16) else s'

/-- Origin core of a rectangle (R73). -/
def originOf (w : Word) : Nat := rectLo w

/-! Replayed methods end (R216, R218-R221, R231). -/

/-- One bit of the CRC-64 of R231. -/
def crc64Bit (c : BitVec 64) (b : Bool) : BitVec 64 :=
  let top := c.getLsbD 63 != b
  if top then (c <<< 1) ^^^ 0x42F0E1EBA9EA3693 else c <<< 1
/-- One byte of the CRC-64, from its top bit (DESIGN CHOICE, log 99). -/
def crc64Byte (c : BitVec 64) (b : Byte) : BitVec 64 :=
  ((List.range 8).map fun i => b.getLsbD (7 - i)).foldl crc64Bit c
/-- The CRC-64 of a block (R231): initial value and final XOR all ones. -/
def crc64 (bs : List Byte) : BitVec 64 := ~~~(bs.foldl crc64Byte (-1))

/-- Replica of an object on a die (R218). -/
def State.replica (s : State) (d n : Nat) : Replica := tget {} (s.die d).replicas n
/-- Changing a replica. -/
def State.modReplica (s : State) (d n : Nat) (f : Replica → Replica) : State :=
  s.modDie d fun x => { x with replicas := tset {} x.replicas n (f (tget {} x.replicas n)) }
/-- Key of byte a of an object's state block on a die (R218). -/
def State.blockKey (s : State) (d n a : Nat) : Nat := poolKey d (((s.replica d n).pool[a / 2 ^ 16]?).getD 0) (a % 2 ^ 16)
/-- Entry address of a position (R216). -/
def Object.entryPA (o : Object) (p : Nat) : Nat :=
  (o.w1.extractLsb' 0 48).toNat + 64 * ((p - 1) % 2 ^ (o.w0.extractLsb' 40 4).toNat)
/-- Key slot of the log (R215). -/
def Object.key (o : Object) : Nat := (o.w0.extractLsb' 44 8).toNat
/-- Whether a die holds a replica (R215). -/
def Object.repl (o : Object) (d : Nat) : Bool := o.w0.getLsbD (32 + d)
/-- V (R215). -/
def Object.valid (o : Object) : Bool := o.w0.getLsbD 0
/-- OWNER (R215). -/
def Object.ownerOf (o : Object) : BitVec 16 := o.w0.extractLsb' 16 16
/-- Reading a dword of a log entry under the log's key. -/
def State.logNum (s : State) (o : Object) (p off n : Nat) : Nat :=
  ofLe (s.keyBytes o.key (o.entryPA p + off) n)

/-! Log positions (R215, R229, R232). -/

/-- LOGN. -/
def logN (w0 : Dword) : Nat := (w0.extractLsb' 40 4).toNat
/-- Dies of REPL. -/
def replDies (w0 : Dword) : List Nat := (List.range 8).filter fun d => w0.getLsbD (32 + d)

/-- The lowest pinned position. -/
def Object.pinned (o : Object) : Option Nat := o.pins.foldl (fun m p => match m with | none => some p | some q => some (Nat.min p q)) none

/-- Trimming (R229): the least of the reported positions and the position below the lowest pin; TRIM never decreases. -/
def Object.trimTo (o : Object) : Nat :=
  let lo := (replDies o.w0).foldl (fun m d => Nat.min m (tget 0 o.reported d)) o.tail
  let lo := match o.pinned with
    | some p => Nat.min lo (p - 1)
    | none => lo
  Nat.max o.trim lo

/-- TRIM rises (R229). -/
def State.trimNow (s : State) (n : Nat) : State := s.modObj n fun o => { o with trim := o.trimTo }

/-- The position an RCALL.w waits for (R232). -/
def Slot.pin (x : Slot) : Option (Nat × Nat) :=
  match x.status, x.stage with
  | .parked (.applied o _), .appended p => some (o, p)
  | _, _ => none

/-- A pinned position is released (R229, R232). -/
def State.unpinOne (s : State) (n p : Nat) : State := (s.modObj n fun o => { o with pins := o.pins.erase p }).trimNow n

/-- The pin of a slot whose call is given up clears (R232). -/
def State.unpinSlot (s : State) (x : Slot) : State :=
  match x.pin with
  | some (o, p) => s.unpinOne o p
  | none => s

/-- How a method trapped (R216, R220). -/
structure MethodTrap where
  cause : Nat
  code : Nat
  budget : Bool
  overrun : Bool
  deriving DecidableEq, Repr

/-- The status word of a method that trapped (R223). -/
def mtrpStatus (t : MethodTrap) : Dword :=
  BitVec.ofNat 64 (1 + t.cause * 2 ^ 8 + t.budget.toNat * 2 ^ 16 + t.overrun.toNat * 2 ^ 17 +
    (if t.cause = cSWT then t.code * 2 ^ 18 else 0))

/-- A pool bank reports an uncorrectable word of a replica's block (R122, R231): the replica stops and is resynced. -/
def State.poolFault (s : State) (d n : Nat) : State :=
  if (s.replica d n).resync then s
  else (s.modReplica d n fun x => { x with stopped := true, resync := true }).post (.replicaResync n d)

/-- Reading bytes of a block: errors are corrected, and poison stops the replica (R122, R231). -/
def State.blockRead (s : State) (d n a len : Nat) : State :=
  (List.range len).foldl (fun s i =>
    let k := s.blockKey d n (a + i)
    let s := s.correctRun k 1
    if s.poisoned k then s.poolFault d n else s) s

/-- Committing a method's stores to the state block (R220); a store that leaves part of a poisoned word stops the replica (R122,
R231). -/
def State.commit (s : State) (d : Nat) (m : Method) : State :=
  let whole (a : Nat) : Bool := (List.range 8).all fun i => m.wbuf.any fun c => c.1 == a / 8 * 8 + i
  m.wbuf.foldl (fun s c =>
    let k := s.blockKey d m.obj c.1
    let s := s.setByte k c.2
    if whole c.1 then (s.setPoison k false).rewriteRun (poisonKey k) 8 else if s.poisoned k then s.poolFault d m.obj else s) s

/-- Marking a log entry applied or trapped, by the first replica that applies it (R216). -/
def State.markEntry (s : State) (d : Nat) (m : Method) (t : Option MethodTrap) (r0 r1 : Dword) : State :=
  let o := s.obj m.obj
  let pa := o.entryPA m.pos
  if s.logNum o m.pos 10 1 ≠ 0 then s else
    let hd := match t with
      | none => 1
      | some t => 2 + t.cause * 2 ^ 8
    let tl := match t with
      | none => 0
      | some t => (if t.cause = cSWT then t.code else 0) + t.budget.toNat * 2 ^ 11 + t.overrun.toNat * 2 ^ 12
    let res := if t.isSome then List.replicate 16 0 else leBytes 8 r0.toNat ++ leBytes 8 r1.toNat
    let put (off : Nat) (bs : List Byte) (s : State) : State := s.physWrite (gate d) o.key (pa + off) bs
    put 48 res (put 14 (leBytes 2 tl) (put 10 (leBytes 2 hd) s))

/-- A method of a replica that is resynced ends with no effect (R231): its entry is applied from the donor's block, and a read
starts again. -/
def State.methodDropped (s : State) (r : SlotRef) (d : Nat) (m : Method) : State :=
  let s := s.setSlot r {}
  match m.caller with
  | none => s.post (.carouselApply d)
  | some c => (s.modDie d fun x =>
      { x with reads := { obj := m.obj, method := m.num, args := m.args, caller := c } :: x.reads }).post (.carouselRead d)

/-- A carousel reports a position to the sequencer (R218). -/
def State.reportApplied (s : State) (d n p : Nat) : State :=
  (s.modReplica d n fun x => { x with onWay := x.onWay ++ [p] }).route (gate d) ioNode 1 false 16 (.appliedPositionReport d n)

/-- A method ends (R220, R221): slot 0 commits, marks the entry and advances the applied position; a read answers its
caller. -/
def State.methodEnd (s : State) (r : SlotRef) (t : Option MethodTrap) : State :=
  match (s.slot r).method, dieOf r.place with
  | some m, some d =>
    let x := s.slot r
    let r0 := x.getG 2
    let r1 := x.getG 3
    if (s.replica d m.obj).resync then s.methodDropped r d m
    else
    let s := if t.isNone && !m.ro then s.commit d m else s
    let s := s.setSlot r {}
    if r.k = 0 then
      let s := s.markEntry d m t r0 r1
      let s := s.modReplica d m.obj fun x => { x with applied := m.pos }
      let o := s.obj m.obj
      let s := if m.pos % 1024 = 0 then
          let code := crc64 ((List.range o.blockBytes).map fun a => s.byte (s.blockKey d m.obj a))
          (s.blockRead d m.obj 0 o.blockBytes).modObj m.obj fun o => { o with codes := o.codes ++ [(d, m.pos, code.toNat)] }
        else s
      let s := if m.pos % 64 = 0 ∨ m.pos = o.tail then s.reportApplied d m.obj m.pos else s
      s.post (.carouselApply d)
    else
      let s := match m.caller with
        | none => s
        | some c =>
          if (s.slot c).status = Status.parked (.read d m.obj) then
            s.modSlot c fun y => { y with stage := match t with
              | none => .readDone 0 r0 r1
              | some t => .readDone (mtrpStatus t) 0 0 }
          else s
      s.post (.carouselRead d)
  | _, _ => s

/-! Traps (R259-R263, R290, R291). -/

/-- Address of the instruction a slot issues: its prefix when it has one (R41), its place in a repeat frame, or PC. -/
def Slot.at (x : Slot) : BitVec 16 :=
  match x.pre with
  | some p => p.addr
  | none =>
    match x.rpt with
    | some f => if f.missing = 0 then (match f.words[f.idx]? with | some w => w.addr | none => x.pc) else x.pc
    | none => x.pc

/-- What a trap records beyond its cause and address (R260). -/
structure TrapInfo where
  cause : Nat
  taddr : Dword := 0
  flg : Nat := 0
  code : Nat := 0
  reason : Nat := 0
  async : Bool := false
  more : Bool := false
  tepc : BitVec 16 := 0
  budget : Bool := false
  overrun : Bool := false
  deriving DecidableEq, Repr

/-- INH of TINFO (R260). -/
def inhBit (w : Dword) : Bool := w.getLsbD 30

/-- The word of TINFO (R260). -/
def tinfoWord (stream inframe inh : Bool) (rep : Nat) (t : TrapInfo) (rpc : BitVec 16) : Dword :=
  BitVec.ofNat 64 (t.async.toNat + stream.toNat * 2 + inframe.toNat * 4 + (rep % 256) * 8 + (t.flg % 32) * 2 ^ 11 +
    (t.code % 2 ^ 11) * 2 ^ 16 + (t.reason % 4) * 2 ^ 27 + t.more.toNat * 2 ^ 29 + inh.toNat * 2 ^ 30 +
    (if t.async then rpc.toNat else 0) * 2 ^ 48)

/-- The trap record: TCAUSE, TADDR, TEPC and TINFO, with INH as sampled before (R262). The repeat frame is abandoned
and the pending prefix dropped (R62, R261). -/
def Slot.record (x : Slot) (t : TrapInfo) : Slot :=
  let frame := match x.rpt with
    | some f => f.missing = 0
    | none => false
  let rep := match x.rpt with
    | some f => if f.missing = 0 then f.j else 0
    | none => 0
  { x with
    tcause := BitVec.ofNat 8 t.cause
    taddr := t.taddr
    tepc := if t.async then t.tepc else x.at
    tinfo := tinfoWord x.streamed frame (inhBit x.tinfo) rep t x.at
    rpt := none
    pre := none
    since := 0
    stage := .fresh }

/-- Whether a core stands on the east edge of a rectangle (R73). -/
def eastEdge (rect : Word) (c : Nat) : Bool := coreCol c == coreCol (rectHi rect)

/-- Whether a core leads its row (R78). -/
def isLead (rect : Word) (c : Nat) : Bool := coreCol c == coreCol (rectLo rect)

/-- The record of a benched slot (R263, R291). -/
def benchMessage (id : Nat) (cc : Bool) (x : Slot) : Message :=
  { header := BitVec.ofNat 64 (0x09 + (id % 2 ^ 16) * 2 ^ 8 + x.tcause.toNat * 2 ^ 24 + x.tepc.toNat * 2 ^ 32 + cc.toNat * 2 ^ 48)
    payload := x.taddr }

/-- Benching (R263): the slot issues nothing more; a spawned context is discarded, but for the stores it has
outstanding. A streamed slot's words stay in its
buffer, to be relayed east (R84); words a repeat frame held back go first. -/
def Slot.bench (x : Slot) : Slot :=
  if x.spawned then { relaxed := x.relaxed.filter fun a => a.store } else { x with status := .benched, out := x.out ++ x.held, held := [], hold := 0, pre := none }

/-- A window's claim is withdrawn from a bank's site (R109): one that is not there yet is on its way, and does nothing when it
comes. -/
def State.withdrawClaim (s : State) (bank core w : Nat) (ctx : Option Nat) : State :=
  let owner := match ctx.bind fun n => (s.tst n).desc with | some d => d.owner.toNat | none => 0
  s.modBank bank fun b =>
    let mine (c : Claim) : Bool := c.core == core && c.w == w && c.ctx == ctx
    { b with
      queue := b.queue.filter (!mine ·), heldClaims := b.heldClaims.filter (!mine ·)
      withdrawn := if b.queue.any mine || b.heldClaims.any mine then b.withdrawn else b.withdrawn ++ [(core, w, owner)] }

/-- A HOVR in flight of a stopped core is cancelled, and pending claims are withdrawn (R115, R118). The window of such a claim becomes
empty in the mode it had (DESIGN CHOICE, log 102). -/
def State.withdrawClaims (s : State) (core : Nat) : State :=
  (List.range 16).foldl (fun s w =>
    let e := s.entry core w
    if e.clm then (s.setEntry core w { fault := e.fault }).withdrawClaim e.bank core w (s.site core).launch else s) s

/-- A slot leaves the reservation queue it stands in; when it held the word, the word is granted on (R207, R208). A slot
that stops leaves its queue (log 26). -/
def State.leaveResv (s : State) (r : SlotRef) : State :=
  match (s.slot r).resv with
  | none => s
  | some v =>
    let s := { s with resv := tset [] s.resv v.key ((tget [] s.resv v.key).filter (· ≠ r)) }
    let s := s.modSlot r fun x => { x with resv := none }
    if v.held then s.post (.reservationGrant v.key) else s

/-- Whether a pre-emption is under way of the context loaded on a core (R256). -/
def State.stopping (s : State) (core : Nat) : Bool :=
  match (s.site core).launch with
  | none => false
  | some n => match (s.tst n).ctx with
    | some c => c.stopping.isSome
    | none => false

/-- The bench record and the revocation wait for the restore (R266). -/
def State.deferRevoke (s : State) (core : Nat) (r : SlotRef) : State :=
  match (s.site core).launch with
  | none => s
  | some n => s.modTst n fun t => { t with ctx := t.ctx.map fun c => { c with pendingRevoke := c.pendingRevoke ++ [r] } }

/-- The arrivals of a slot whose context ends are no longer its own, and still count (R349). -/
def State.forgetBars (s : State) (core k : Nat) : State :=
  let s : State := { s with barSends := s.barSends.map fun b => if b.core = core ∧ b.k = k then { b with live := false } else b }
  s.modSite core fun y => { y with arrived := y.arrived.map fun b => if b.k = k then { b with live := false } else b }

/-- The launch of a sender that has ended: no turnstile has this number. -/
def nobody : Option Nat := some 1024

/-- What a slot sent and asked for reports to no context that runs in it later (R358). -/
def State.orphanSlot (s : State) (r : SlotRef) : State :=
  { s with
    sends := s.sends.map fun e => if e.slot = r then { e with ctx := nobody } else e
    iod := { s.iod with requests := s.iod.requests.map fun q => if q.slot = r then { q with ctx := nobody } else q } }

/-- A spawned context ends in a slot: what it sent reports to no later one, and its arrivals still count (R349, R358). -/
def State.endSpawned (s : State) (core k : Nat) : State := (s.forgetBars core k).orphanSlot (meshSlot core k)

/-- An atomic that stands at the head of a reservation queue: it completes its write before its slot stops (R303). -/
def Slot.atomicHead (x : Slot) : Bool :=
  match x.resv with
  | some v => v.held && v.atomic
  | none => false

/-- Revocation, step 1 (R118, R195): every slot of the core stops, its matrix commands are abandoned but for a pass under way, and
its claims are withdrawn; the drain of its banks then
ends in REVOCATION_DETACH. Revocation runs once for a core (R266). -/
def State.revoke (s : State) (core : Nat) (v : Revoking) : State :=
  if (s.site core).revoked || (s.site core).revoking.isSome then s else
    let s := (coreSlots core).foldl (fun s t =>
      let x := s.slot t
      if x.status = Status.free || x.atomicHead then s else
        let s := (s.leaveResv t).unpinSlot x
        let s := if x.spawned then s.endSpawned core t.k else s
        s.setSlot t (s.slot t).bench) s
    let s := s.withdrawClaims core
    let s := s.modSite core fun y => { y with revoking := some v, revokeDue := none, w5 := y.w5.filter fun e => e.passing }
    s.post (.revocationDetach core)

/-- A revocation is due: it begins when the rotation ends, so that every slot of the core that traps in that rotation takes
its own trap (R266). -/
def State.revokeSoon (s : State) (core : Nat) (r : SlotRef) (x : Slot) : State :=
  let v : Revoking := { slot := r, tcause := x.tcause.toNat, origin := originOf x.rect, owner := x.owner.toNat }
  s.modSite core fun y => { y with revokeDue := if y.revokeDue.isSome then y.revokeDue else some v }

/-- A revocation that is due begins. -/
def State.revokeNow (s : State) (core : Nat) : State :=
  match (s.site core).revokeDue with
  | some v => s.revoke core v
  | none => s

/-- The records of a core's benched slots are posted, in slot order (R263, R266). -/
def State.postRecords (s : State) (core : Nat) : State :=
  let y := s.site core
  if y.records = [] then s
  else y.records.foldl (fun s b => s.partMail core b.origin b.owner 13 b.msg) (s.setSite core { y with records := [] })

/-- At the end of a rotation the records of benched slots leave, and the revocations that are due begin (R118, R266). -/
def State.revokeRound (s : State) : State := s.sites.foldl (fun s e => (s.postRecords e.1).revokeNow e.1) s

/-- A record among those of a core, after those of the slots up to its own. -/
def insertRecord (b : BenchRec) : List BenchRec → List BenchRec
  | [] => [b]
  | a :: t => if b.k < a.k then b :: a :: t else a :: insertRecord b t

/-- The record of a benched slot is to be posted at the end of the rotation, and TEN.REVOKE revokes the banks of its core then
(R118, R263, R266). -/
def State.benchRecord (s : State) (core : Nat) (r : SlotRef) (x : Slot) : State :=
  let b : BenchRec := { k := r.k, origin := originOf x.rect, owner := x.owner.toNat, msg := benchMessage (slotId r) false x }
  let s := s.modSite core fun y => { y with records := insertRecord b y.records }
  if x.ten.getLsbD 6 then s.revokeSoon core r x else s

/-- Taking a trap (R262, R291), the one operation every trap goes through. A benched slot gives up its reservation (DEDUCED, log 26) and
its pin (DEDUCED, log 97). In a carousel method the trap ends the
method (R220). TEN.REVOKE has no effect in a control core (R291). -/
def State.takeTrap (s : State) (r : SlotRef) (t : TrapInfo) : State :=
  match r.place with
  | .carousel _ => s.methodEnd r (some { cause := t.cause, code := t.code, budget := t.budget, overrun := t.overrun })
  | .mesh core =>
    let inh := inhBit (s.slot r).tinfo
    let x := (s.slot r).record t
    if !x.streamed ∧ x.tvec ≠ 0 ∧ !inh then
      s.setSlot r { x with status := .ready, pc := x.tvec, tinfo := x.tinfo ||| (1 : Dword) <<< 30 }
    else
      let s := ((s.leaveResv r).unpinSlot (s.slot r)).setSlot r { x with resv := none }.bench
      if x.ten.getLsbD 6 && s.stopping core then
        (if x.spawned then s.setSlot r { x with status := .benched, resv := none } else s).deferRevoke core r
      else
        let s := if x.spawned then (s.endSpawned core r.k).post (.spawnServe (coreDie core)) else s
        s.benchRecord core r x
  | .ctl sock _ =>
    let inh := inhBit (s.slot r).tinfo
    let x := (s.slot r).record t
    let x := { x with tcfs := x.cfs, tcfb := x.cfb, cfs := 0 }
    if x.tvec ≠ 0 ∧ !inh then
      s.setSlot r { x with status := .ready, pc := x.tvec, tinfo := x.tinfo ||| (1 : Dword) <<< 30 }
    else
      let msg := benchMessage (slotId r) true x
      let s := s.setSlot r { x with status := .free }
      let s := s.modIod fun d => { d with mgmt := d.mgmt ++ [.bench msg] }
      s.partMail (nodeOf r.place) (placeKey (.ctl sock 0)) 0 13 msg

/-- Return from a trap handler (R262, R290, R369): PC from RPC or TEPC, INH cleared, the fetch source restored in a
control core. -/
def Slot.tret (x : Slot) (ctl : Bool) : Slot :=
  let x := if ctl then { x with cfs := x.tcfs, cfb := x.tcfb } else x
  { x with
    pc := if x.tinfo.getLsbD 0 then x.tinfo.extractLsb' 48 16 else x.tepc
    tinfo := x.tinfo &&& ~~~((1 : Dword) <<< 30) }

end Sys2Proof.Machine
end

