-- ==== Sys2Proof/Machine/Issue.lean ====
section
/-! DEFINITION. One issue of a slot (R39-R41, R52, R60-R62, R64, R214, R237): fetching, the checks that come before an
instruction's own effect, and what its outcome does to the slot. -/
namespace Sys2Proof.Machine

/-! Which rules an instruction falls under. -/

/-- Prefix fields that apply (R51): none when the mnemonic is not listed; otherwise RM, SAT, RLX. -/
def prefixUse : Instr → Option (Bool × Bool × Bool)
  | .fadd .. | .fsub .. | .fmul .. | .fdiv .. | .fsqrt .. | .fma .. | .cvt .. => some (true, false, false)
  | .vadd _ t .. | .vsub _ t .. | .vmul _ t .. | .vfma _ t .. => some (t.isFloat, t.isInt, false)
  | .vred _ t _ op _ _ => some (op == .sum && t.isFloat, op == .sum && t.isInt, false)
  | .vexp2 .. | .vrcp .. | .vrsq .. | .vcvt .. | .vcvtN .. | .qcvt .. => some (true, false, false)
  | .mmaLatch .. | .mmaLocal .. | .msto .. | .mstoStream .. => some (true, false, false)
  | .add .. | .sub .. | .mul .. | .mad .. | .addi .. => some (false, true, false)
  | .ldI8 .. | .ldI16 .. | .ldI32 .. | .ldI64 .. | .ldN8 .. | .ldN16 .. | .ldN32 .. | .ldLong .. => some (false, false, true)
  | .st .. | .stLong .. | .vld .. | .vst .. | .vlds .. | .vsts .. | .vgth .. | .vsct .. => some (false, false, true)
  | _ => none

/-- Words an instruction takes (R38); of a word that is no instruction, those its first word claims. -/
def wordsOf : Instr → Nat
  | .notAnInstruction w _ => if wordBytes w = 8 then 2 else 1
  | .movi .. | .ldLong .. | .stLong .. | .jmp .. | .acas .. | .mmaLatch .. | .mmaLocal .. | .cpyg .. | .cpyb .. | .cpyx ..
  | .putr .. | .getr .. | .shld .. | .shst .. | .shev .. | .send .. | .sendt .. | .spawn .. | .saddLong .. | .arm ..
  | .rcall .. | .rread .. | .rwait .. | .rtrim .. => 2
  | _ => 1

/-- Synchronisation points (R214). -/
def isSync : Instr → Bool
  | .fence .. | .push .. | .pop .. | .nput .. | .nget .. | .send .. | .sendt .. | .recv .. | .sadd .. | .saddLong ..
  | .sset .. | .swait .. | .bara .. | .barw .. | .lrw .. | .sch .. | .rrel .. | .aadd .. | .aand .. | .aor .. | .axor ..
  | .amin .. | .amax .. | .axch .. | .acas .. | .cpyg .. | .cpyb .. | .cpyx .. | .putr .. | .getr .. | .hovr ..
  | .hovrNotice .. | .dtch .. | .spawn .. | .rcall .. | .rread .. | .rwait .. | .rtrim .. => true
  | _ => false

/-- Instructions that raise ILL in a control core (R287). -/
def ctlIll : Instr → Bool
  | .mmaLatch .. | .mmaLocal .. | .mzero .. | .msto .. | .mstoStream .. | .mlatch .. | .mpass .. | .nput .. | .nget ..
  | .atch .. | .dtch .. | .hovr .. | .hovrNotice .. | .bqry .. | .cpyg .. | .cpyb .. | .cpyx .. | .putr .. | .getr ..
  | .bara .. | .barw .. | .spawn .. | .quit .. => true
  | .pop _ w _ => w == 6
  | _ => false

/-- Instructions that raise PRIV in a mesh slot (R136, R141, R227, R249, R252). -/
def meshPriv : Instr → Bool
  | .arm .. | .disarm .. | .tlbi .. | .wake .. | .rtrim .. => true
  | _ => false

/-- Instructions a carousel method may use (R219); GETC and SETC check their number themselves. -/
def methodMay : Instr → Bool
  | .add .. | .sub .. | .mul .. | .mulh .. | .div .. | .rem .. | .and .. | .or .. | .xor .. | .shl .. | .shr .. | .sha ..
  | .rot .. | .min .. | .max .. | .sel .. | .clz .. | .popc .. | .mad .. | .mov .. | .ext .. | .ins .. | .addi .. | .andi ..
  | .ori .. | .xori .. | .cmpi .. | .cmp .. | .qand .. | .qor .. | .qxor .. | .qnot .. | .ldI8 .. | .ldI16 .. | .ldI32 ..
  | .ldI64 .. | .ldN8 .. | .ldN16 .. | .ldN32 .. | .ldLong .. | .st .. | .stLong .. | .aadd .. | .aand .. | .aor ..
  | .axor .. | .amin .. | .amax .. | .axch .. | .acas .. | .br .. | .call .. | .jmpr .. | .jmp .. | .ret .. | .loop ..
  | .rpt .. | .nop .. | .trap .. | .fadd .. | .fsub .. | .fmul .. | .fdiv .. | .fsqrt .. | .fmin .. | .fmax .. | .fma ..
  | .fclass .. | .fcmp .. | .cvt .. | .vadd .. | .vsub .. | .vmul .. | .vfma .. | .vmin .. | .vmax .. | .vminN ..
  | .vmaxN .. | .vand .. | .vor .. | .vxor .. | .vshl .. | .vshrLogical .. | .vshrArithmetic .. | .vcmp .. | .vcmpN ..
  | .vsel .. | .vmov .. | .vbcst .. | .vshuf .. | .vred .. | .vexp2 .. | .vrcp .. | .vrsq .. | .vcvt .. | .vcvtN ..
  | .qscl .. | .qcvt .. | .pxpk .. | .pxun .. | .vld .. | .vst .. | .vgth .. | .vsct .. | .movi .. | .getc .. | .setc .. => true
  | _ => false

/-- Words that may stand in a repeat frame (R60). -/
def frameMay : Instr → Bool
  | .add .. | .sub .. | .mul .. | .mulh .. | .div .. | .rem .. | .and .. | .or .. | .xor .. | .shl .. | .shr .. | .sha ..
  | .rot .. | .min .. | .max .. | .sel .. | .clz .. | .popc .. | .mad .. | .mov .. | .ext .. | .ins .. | .addi .. | .andi ..
  | .ori .. | .xori .. | .cmpi .. | .cmp .. | .qand .. | .qor .. | .qxor .. | .qnot .. | .fadd .. | .fsub .. | .fmul ..
  | .fdiv .. | .fsqrt .. | .fmin .. | .fmax .. | .fma .. | .fclass .. | .fcmp .. | .cvt .. | .vadd .. | .vsub .. | .vmul ..
  | .vfma .. | .vmin .. | .vmax .. | .vminN .. | .vmaxN .. | .vand .. | .vor .. | .vxor .. | .vshl .. | .vshrLogical ..
  | .vshrArithmetic .. | .vcmp .. | .vcmpN .. | .vsel .. | .vmov .. | .vbcst .. | .vshuf .. | .vred .. | .vexp2 ..
  | .vrcp .. | .vrsq .. | .vcvt .. | .vcvtN .. | .qscl .. | .qcvt .. | .pxpk .. | .pxun .. | .mzero .. | .mmaLatch ..
  | .mmaLocal .. => true
  | _ => false

/-- A repetition's v and acc fields (R61): n is j x vstep. -/
def stagger (n : Nat) (i : Instr) : Instr :=
  let v (x : R4) : R4 := x + BitVec.ofNat 4 n
  let c (x : BitVec 2) : BitVec 2 := x + BitVec.ofNat 2 n
  match i with
  | .vadd q t z m b a d => .vadd q t z m (v b) (v a) (v d)
  | .vsub q t z m b a d => .vsub q t z m (v b) (v a) (v d)
  | .vmul q t z m b a d => .vmul q t z m (v b) (v a) (v d)
  | .vfma q t z m b a d => .vfma q t z m (v b) (v a) (v d)
  | .vmin q t z m b a d => .vmin q t z m (v b) (v a) (v d)
  | .vmax q t z m b a d => .vmax q t z m (v b) (v a) (v d)
  | .vminN q t z m b a d => .vminN q t z m (v b) (v a) (v d)
  | .vmaxN q t z m b a d => .vmaxN q t z m (v b) (v a) (v d)
  | .vand q t z m b a d => .vand q t z m (v b) (v a) (v d)
  | .vor q t z m b a d => .vor q t z m (v b) (v a) (v d)
  | .vxor q t z m b a d => .vxor q t z m (v b) (v a) (v d)
  | .vshl q t z m b a d => .vshl q t z m (v b) (v a) (v d)
  | .vshrLogical q t z m b a d => .vshrLogical q t z m (v b) (v a) (v d)
  | .vshrArithmetic q t z m b a d => .vshrArithmetic q t z m (v b) (v a) (v d)
  | .vcmp q t k b a md => .vcmp q t k (v b) (v a) md
  | .vcmpN q t k b a md => .vcmpN q t k (v b) (v a) md
  | .vsel q t m b a d => .vsel q t m (v b) (v a) (v d)
  | .vmov q t z m a d => .vmov q t z m (v a) (v d)
  | .vbcst q t z m a d => .vbcst q t z m a (v d)
  | .vshuf q t z m b a d => .vshuf q t z m (v b) (v a) (v d)
  | .vred q t m o a d => .vred q t m o (v a) d
  | .vexp2 q t z m a d => .vexp2 q t z m (v a) (v d)
  | .vrcp q t z m a d => .vrcp q t z m (v a) (v d)
  | .vrsq q t z m a d => .vrsq q t z m (v a) (v d)
  | .vcvt q t z m f a d => .vcvt q t z m f (v a) (v d)
  | .vcvtN q t z m f a d => .vcvtN q t z m f (v a) (v d)
  | .qscl q t f a d => .qscl q t f (v a) (v d)
  | .qcvt q t f a d => .qcvt q t f (v a) (v d)
  | .pxpk q a d => .pxpk q (v a) (v d)
  | .pxun q a d => .pxun q (v a) (v d)
  | .mzero q n => .mzero q (c n)
  | .mmaLatch q ts l a n nb ac pb => .mmaLatch q ts l a (c n) nb ac pb
  | .mmaLocal q tA tB b a n nb ac => .mmaLocal q tA tB b a (c n) nb ac
  | i => i

/-- The pair of registers from n on. -/
def pairOf (n : R4) : List R4 := [n, n + 1]
/-- The four registers from n on. -/
def fourOf (n : R4) : List R4 := [n, n + 1, n + 2, n + 3]

/-- g registers an instruction reads or writes (R237). -/
def gUse : Instr → List R4
  | .add _ _ b a d | .sub _ _ b a d | .mul _ _ b a d | .shl _ _ b a d | .shr _ _ b a d | .sha _ _ b a d | .rot _ _ b a d
  | .mad _ _ b a d => [b, a, d]
  | .mulh _ _ _ b a d | .div _ _ _ b a d | .rem _ _ _ b a d | .min _ _ _ b a d | .max _ _ _ b a d => [b, a, d]
  | .and _ b a d | .or _ b a d | .xor _ b a d | .sel _ b a d | .ext _ b a d | .ins _ b a d => [b, a, d]
  | .clz _ _ a d | .popc _ _ a d => [a, d]
  | .mov _ a d => [a, d]
  | .addi _ _ a d | .andi _ _ a d | .ori _ _ a d | .xori _ _ a d => [a, d]
  | .cmpi _ _ _ a _ => [a]
  | .cmp _ _ _ b a _ => [b, a]
  | .ldI8 _ _ _ a d | .ldI16 _ _ _ a d | .ldI32 _ _ _ a d | .ldI64 _ _ _ a d | .ldN8 _ _ _ a d | .ldN16 _ _ _ a d
  | .ldN32 _ _ _ a d => [a, d]
  | .ldLong _ _ _ _ a d => [a, d]
  | .st _ _ _ _ a d | .stLong _ _ _ _ a d => [a, d]
  | .lrw _ _ _ a d | .sch _ _ _ a d | .aadd _ _ _ a d | .aand _ _ _ a d | .aor _ _ _ a d | .axor _ _ _ a d
  | .amin _ _ _ a d | .amax _ _ _ a d | .axch _ _ _ a d => [a, d]
  | .rrel _ _ _ a => [a]
  | .acas _ _ _ _ b a d => [b, a, d]
  | .call .. | .ret .. => [8, 9, 10, 11, 12, 13, 14, 15]
  | .jmpr _ a => [a]
  | .loop _ _ c => [c]
  | .getc _ _ d => [d]
  | .setc _ _ a => [a]
  | .sets _ _ a _ => [a]
  | .recv _ _ p => pairOf (p ++ (0 : BitVec 1))
  | .swait _ a _ | .sadd _ a _ | .sset _ a _ | .bara _ a _ | .barw _ a _ | .fence _ a => [a]
  | .saddLong _ b a _ => [b, a]
  | .time _ d => [d]
  | .pop _ _ d => [d]
  | .push _ _ a => [a]
  | .atch _ a _ => [a]
  | .hovr _ _ b a _ | .hovrNotice _ _ _ b a _ => [b, a]
  | .bqry _ _ d => [d]
  | .wake _ a | .tlbi _ _ a | .disarm _ a => [a]
  | .fadd _ _ b a d | .fsub _ _ b a d | .fmul _ _ b a d | .fdiv _ _ b a d | .fmin _ _ b a d | .fmax _ _ b a d
  | .fma _ _ b a d => [b, a, d]
  | .fsqrt _ _ a d | .fclass _ _ a d => [a, d]
  | .fcmp _ _ _ b a _ => [b, a]
  | .cvt _ _ _ a d => [a, d]
  | .vbcst _ _ _ _ a _ => [a]
  | .vred _ _ _ _ _ d => [d]
  | .vld _ _ _ _ a _ | .vst _ _ _ _ a _ => [a]
  | .vlds _ _ _ _ a _ | .vsts _ _ _ _ a _ => pairOf a
  | .vgth _ _ _ _ b _ _ => [b]
  | .vsct _ _ _ b _ _ => [b]
  | .msto _ _ _ a _ => [a]
  | .mlatch _ _ a _ => [a]
  | .movi _ _ d => [d]
  | .mmaLatch _ _ _ a .. => [a]
  | .mmaLocal _ _ _ b a .. => [b, a]
  | .cpyg _ _ c b .. | .cpyb _ _ c b .. | .cpyx _ _ c b .. | .putr _ _ c b .. | .getr _ _ c b .. => [c, b]
  | .shld _ _ _ _ a | .shst _ _ _ _ a => [a]
  | .send _ _ _ b a _ _ => [b, a]
  | .sendt _ c b a _ => [c, b, a]
  | .spawn _ _ b a => [b, a, 4, 5, 6, 7]
  | .arm _ c b a _ => [c, b, a]
  | .rcall _ _ c b a _ | .rread _ _ c b a _ => a :: pairOf c ++ fourOf b
  | .rwait _ b a => [b, a]
  | .rtrim _ a => [a]
  | _ => []

/-- v registers an instruction reads or writes (R237). -/
def vUse : Instr → List R4
  | .vadd _ _ _ _ b a d | .vsub _ _ _ _ b a d | .vmul _ _ _ _ b a d | .vfma _ _ _ _ b a d | .vmin _ _ _ _ b a d
  | .vmax _ _ _ _ b a d | .vminN _ _ _ _ b a d | .vmaxN _ _ _ _ b a d | .vand _ _ _ _ b a d | .vor _ _ _ _ b a d
  | .vxor _ _ _ _ b a d | .vshl _ _ _ _ b a d | .vshrLogical _ _ _ _ b a d | .vshrArithmetic _ _ _ _ b a d
  | .vshuf _ _ _ _ b a d => [b, a, d]
  | .vcmp _ _ _ b a _ | .vcmpN _ _ _ b a _ => [b, a]
  | .vsel _ _ _ b a d => [b, a, d]
  | .vmov _ _ _ _ a d => [a, d]
  | .vbcst _ _ _ _ _ d => [d]
  | .vred _ _ _ _ a _ => [a]
  | .vexp2 _ _ _ _ a d | .vrcp _ _ _ _ a d | .vrsq _ _ _ _ a d => [a, d]
  | .vcvt _ _ _ _ _ a d | .vcvtN _ _ _ _ _ a d => [a, d]
  | .qscl _ t _ a d | .qcvt _ t _ a d => if t = .f32 then d :: pairOf a else [a, d]
  | .pxpk _ a d | .pxun _ a d => [a, d]
  | .nput _ _ a => [a]
  | .nget _ _ d => [d]
  | .vld _ _ _ _ _ d | .vst _ _ _ _ _ d | .vlds _ _ _ _ _ d | .vsts _ _ _ _ _ d => [d]
  | .vgth _ _ _ _ _ a d => [a, d]
  | .vsct _ _ _ _ a d => [a, d]
  | _ => []

/-! Outcome of an instruction. -/

/-- What an instruction's own meaning answers. -/
inductive Res where
  /-- It takes effect and the slot goes on to the next word. -/
  | done (s : State)
  /-- A control word: taken or not, and where the slot goes on (R81). -/
  | jump (s : State) (taken : Bool) (target : BitVec 16)
  /-- A precise trap: nothing else happens. -/
  | trap (t : TrapInfo)
  /-- A trap that leaves the effects its rule names: the flags of FPX (R163), rows of an MSTO (R194). -/
  | trapIn (s : State) (t : TrapInfo)
  /-- The slot parks and the instruction issues again when the event has come (log 5). -/
  | park (s : State) (p : Park)
  /-- The meaning itself settled where the slot goes on. -/
  | ended (s : State)

/-- A trap of a cause with its TADDR. -/
def trapOf (cause : Nat) (taddr : Dword := 0) : Res := .trap { cause := cause, taddr := taddr }

/-- Whether the slot's place stands on its rectangle's east edge. -/
def Slot.onEast (x : Slot) (p : Place) : Bool :=
  match p with
  | .mesh c => eastEdge x.rect c
  | _ => false

/-- The words a streamed slot has executed go east, or into the hold of a repeat frame (R79, R354); the east edge
discards them (R78). -/
def Slot.consume (x : Slot) (east : Bool) (ws : List StreamWord) (unit : Bool) : Slot :=
  let ws' := if east then [] else ws
  if x.hold = 0 then { x with out := x.out ++ ws' }
  else
    let h := if unit then x.hold - 1 else x.hold
    if h = 0 then { x with hold := 0, held := [], out := x.out ++ x.held ++ ws' }
    else { x with hold := h, held := x.held ++ ws' }

/-- The repeat sequencer's next word, or its prefix (R61, R62): at its end execution goes on after the frame. -/
def Slot.nextInFrame (x : Slot) (f : Rpt) : Slot :=
  if f.idx + 1 < f.words.length then { x with rpt := some { f with idx := f.idx + 1 }, pre := none }
  else if f.j + 1 < f.count then { x with rpt := some { f with idx := 0, j := f.j + 1 }, pre := none }
  else
    let x := { x with rpt := none, pre := none, hold := x.hold - (1 + f.words.length) }
    if x.hold = 0 then { x with held := [], out := x.out ++ x.held } else x

/-- Entries of the stream buffer that an instruction of n words takes, with its prefix (R52, R78). -/
def Slot.taken (x : Slot) (n : Nat) : Nat := n + x.pre.isSome.toNat

/-- A slot goes on past an instruction of n words (R64, R79); `dec` is what a lead decided for it. A prefix goes east with
its instruction. Past offset 0xFFFC the slot goes on at 0 (DESIGN CHOICE, log 62). -/
def Slot.advance (x : Slot) (east : Bool) (n : Nat) (dec : Option Decision) : Slot :=
  if x.streamed then
    let ws := (x.buf.take (x.taken n)).map fun w => { w with dec := if dec.isSome then dec else w.dec }
    ({ x with buf := x.buf.drop (x.taken n), pre := none, since := 0, stage := .fresh }).consume east ws true
  else { x with pc := x.pc + BitVec.ofNat 16 (4 * n), pre := none, since := 0, stage := .fresh }

/-- A slot retires an instruction of n words. -/
def Slot.retire (x : Slot) (east : Bool) (n : Nat) : Slot :=
  match x.rpt with
  | some f => if f.missing = 0 then { (x.nextInFrame f) with since := 0, stage := .fresh } else x.advance east n none
  | none => x.advance east n none

/-- Retiring a parked slot's instruction, by the event that completes it. -/
def State.complete (s : State) (r : SlotRef) (n : Nat) (f : Slot → Slot) : State :=
  let x := s.slot r
  s.setSlot r { ((f x).retire (x.onEast r.place) n) with status := .ready }

/-- Key of the barker stream of a slot: row x 8 + slot number (R77). -/
def barkerKey (c k : Nat) : Nat := coreRow c * 8 + k

/-- The lead's decision reaches its barker, which fetches on from the target (R81, R82). -/
def State.decide (s : State) (r : SlotRef) (target : BitVec 16) : State :=
  match r.place with
  | .mesh c => (s.modDie (coreDie c) fun d =>
      let b := tget {} d.barkers (barkerKey c r.k)
      { d with barkers := tset {} d.barkers (barkerKey c r.k) { b with next := target, waiting := false } }).post
      (.barkerFetch (coreDie c) (coreRow c) r.k)
  | _ => s

/-- Whether a slot is streamed and leads its row (R78). -/
def leads (x : Slot) (p : Place) : Bool :=
  match p with
  | .mesh c => x.streamed && isLead x.rect c
  | _ => false

/-- Parking on a cause, with what the park itself posts (R139, R140). A slot's place in the order of parking is that of the
first park of its instruction, whatever the cause (DESIGN CHOICE, log 63). -/
def State.parkOn (s : State) (r : SlotRef) (p : Park) : State :=
  let s := if (s.slot r).since = 0 then (s.modSlot r fun x => { x with since := s.fresh }).bump else s
  let s := s.modSlot r fun x => { x with status := .parked p }
  match p, dieOf r.place with
  | .tlb va _, some d => s.post (.tlbWalk d (s.slot r).owner.toNat va r)
  | .fault va acc kind, some d => s.pfqPost d (pfqRecord (slotId r) false kind acc (s.slot r).owner.toNat va)
  | _, _ => s

/-- What an instruction's outcome does (R64): `n` is its words. -/
def State.settle (s : State) (r : SlotRef) (n : Nat) : Res → State
  | .done s' => s'.modSlot r fun x => x.retire (x.onEast r.place) n
  | .jump s' taken target =>
    let x := s'.slot r
    if x.streamed then
      if leads x r.place then
        (s'.setSlot r (x.advance (x.onEast r.place) n (some { taken := taken, target := target }))).decide r target
      else s'.setSlot r (x.advance (x.onEast r.place) n none)
    else s'.setSlot r { x with pc := target, pre := none, since := 0, stage := .fresh }
  | .trap t => s.takeTrap r t
  | .trapIn s' t => s'.takeTrap r t
  | .park s' p => s'.parkOn r p
  | .ended s' => s'

/-! Before the instruction's own effect. -/

/-- Each issue of a mesh slot counts against its account, every other issue against account 0 (R282); an instruction that
parked counted when it first issued. -/
def State.chargeIssue (s : State) (r : SlotRef) : State :=
  let x := s.slot r
  if x.since = 0 then s.charge (if isMesh r.place then x.acct.toNat else 0) 0 1 else s

/-- Whether a prefix field is set that does not apply (R41 step 4). -/
def prefixMisfit (p : Pre) (u : Bool × Bool × Bool) : Bool :=
  (p.rm != .dflt && !u.1) || (p.sat && !u.2.1) || (p.rlx && !u.2.2)

/-- Relaxed accesses that keep a synchronisation point waiting (R214): all but DRAM stores in the egress queue and
remote stores. -/
def Relaxed.pending (a : Relaxed) : Bool := !a.store || !(a.arrived || a.away != 0)

/-- Whether a slot's earlier relaxed accesses have gone as far as a scope asks (R214, R239): 0 die, 1 package, 2 system. -/
def Slot.drained (x : Slot) (scope : Nat) : Bool :=
  match scope with
  | 0 => x.relaxed.all fun a => !a.pending
  | 1 => x.relaxed.all fun a => a.store && a.away != 0
  | _ => x.relaxed.isEmpty

/-- Whether an outstanding relaxed load is to write one of these registers (R237). -/
def Relaxed.blocks (a : Relaxed) (gs vs : List R4) : Bool :=
  match a.dest with
  | .g d _ _ => d != 0 && gs.contains d
  | .v d _ _ => vs.contains d
  | _ => false

/-- The oldest asynchronous fault is delivered; further ones are dropped and noted in MORE (R261). -/
def asyncTrap (f : AsyncFault) (more : Bool) : TrapInfo :=
  { cause := f.cause, taddr := f.taddr, reason := f.reason, async := true, more := more, tepc := f.tepc }

/-- Which words a guard does not stop (R40): BR, SEL and LOOP read it as their condition, control words in streamed mode
follow the lead (R81), and VOTE contributes its neutral value (R90). -/
def readsGuard (x : Slot) : Instr → Bool
  | .br .. | .sel .. | .loop .. => true
  | .jmp .. | .jmpr .. | .call .. | .ret .. | .vote .. | .rpt .. => x.streamed
  | _ => false

/-- Words of the stream buffer from the one to issue on: a prefix stays at the head until its instruction has executed (R52,
R79). -/
def Slot.ahead (x : Slot) : List StreamWord := x.buf.drop x.pre.isSome.toNat

/-- Traps that come before an instruction's own rules, in the order of R41 and R219, R220, R287. -/
def earlyTrap (x : Slot) (i : Instr) : Option TrapInfo :=
  let pfx : Option TrapInfo := match x.pre with
    | none => none
    | some p => match prefixUse i with
      | none => some { cause := cORPH }
      | some u => if prefixMisfit p u then some { cause := cILL } else none
  match pfx with
  | some t => some t
  | none =>
    match x.method with
    | some m => if m.left = 0 ∧ x.since = 0 then some { cause := cSWT, budget := true } else none
    | none => none

/-- Refusals by place (R136, R141, R219, R287), after the guard. -/
def placeTrap (r : SlotRef) (i : Instr) : Option Nat :=
  match r.place with
  | .mesh _ => if meshPriv i then some cPRIV else none
  | .ctl _ _ => if ctlIll i then some cILL else none
  | .carousel _ => if methodMay i then none else some cPRIV

/-- A method's instruction counts against its budget (R220). -/
def Slot.spend (x : Slot) : Slot :=
  match x.method with
  | some m => if x.since = 0 then { x with method := some { m with left := m.left - 1 } } else x
  | none => x

/-! Repeat frames in streamed mode (R60, R62, R354). -/

/-- Fields that a staggered word may not hold (R61, R174). -/
def staggerOk : Instr → Bool
  | .qscl _ t _ a _ | .qcvt _ t _ a _ => t != .f32 || a.toNat % 2 == 0
  | _ => true

/-- Whether a frame word passes R60 and R41. -/
def frameWordOk (w : FrameWord) : Bool :=
  frameMay w.ins &&
  match w.pre with
  | none => true
  | some p => match prefixUse w.ins with
    | none => false
    | some u => !prefixMisfit p u

/-- First repetition in which a staggered word fails (R60, R61). -/
def staggerBad (f : Rpt) (w : FrameWord) : Option Nat :=
  (List.range f.count).find? fun j => !staggerOk (stagger (j * f.vstep) w.ins)

/-- The first word of a whole frame that fails a check of R60, and the repetition it fails in. -/
def frameBad (f : Rpt) : Option (Nat × Nat) :=
  (List.range f.words.length).findSome? fun i =>
    match f.words[i]? with
    | none => none
    | some w =>
      if !frameWordOk w then some (i, 0)
      else match staggerBad f w with
        | some j => some (i, j)
        | none => none

/-- A whole frame begins (R60, R61), or raises ILL at the word that fails (R60, log 21). -/
def State.frameStart (s : State) (r : SlotRef) (f : Rpt) : State :=
  match frameBad f with
  | some (i, j) =>
    (s.modSlot r fun x => { x with rpt := some { f with missing := 0, idx := i, j := j } }).takeTrap r { cause := cILL }
  | none =>
    s.modSlot r fun x => { x with rpt := some { f with missing := 0, idx := 0, j := 0 }, pre := none }

/-- A frame word arrives from the stream buffer in the frame store (R62): it is not executed yet. The store takes every legal frame,
also one of more than 32 words (DESIGN CHOICE, log 92). -/
def State.frameArrive (s : State) (r : SlotRef) (f : Rpt) (i : Instr) : State :=
  let x := s.slot r
  let n := x.taken (wordsOf i)
  let f := { f with words := f.words ++ [{ addr := x.at, pre := x.pre, ins := i }], missing := f.missing - 1 }
  let ws := if x.onEast r.place then [] else x.buf.take n
  let s := s.setSlot r { x with buf := x.buf.drop n, held := x.held ++ ws, pre := none, rpt := some f }
  if f.missing = 0 then s.frameStart r f else s

/-- The frame a slot is capturing from its stream. -/
def Slot.capturing (x : Slot) : Option Rpt :=
  match x.rpt with
  | some f => if f.missing = 0 then none else some f
  | none => none

/-- Instructions that stand in a reservation queue (R207, R209). -/
def inResvQueue : Instr → Bool
  | .lrw .. | .aadd .. | .aand .. | .aor .. | .axor .. | .amin .. | .amax .. | .axch .. | .acas .. => true
  | _ => false

/-- An instruction that an asynchronous fault keeps from its effect gives up the place or the grant it has in a reservation
queue (R207, R261). -/
def State.abandonResv (s : State) (r : SlotRef) (i : Instr) : State :=
  let x := s.slot r
  let granted := match x.stage with | .granted _ => true | _ => false
  match x.resv with
  | some v => if inResvQueue i && (granted || !v.held) then s.leaveResv r else s
  | none => s

/-- Whether an issue acts as a synchronisation point (R40, R214, R261): with a true guard, also when it would raise one of the traps
that come before the guard. -/
def syncs (i : Instr) (guard : Bool) (early : Option TrapInfo) (x : Slot) : Bool :=
  isSync i && guard && (early.isNone || x.method.isNone)

/-- Whether an instruction uses its registers (R40, R81, R237): with a true guard, or when it reads the guard as its condition. In a
core that follows its lead the lead's guard alone decides: it uses those of a taken CALL or RET, and none of JMPR, whose target is the
lead's. -/
def usesRegisters (x : Slot) (p : Place) (q : R4) (i : Instr) : Bool :=
  let follows : Bool := x.streamed && !leads x p
  let taken : Bool := match x.ahead with
    | w :: _ => match w.dec with | some d => d.taken | none => false
    | [] => false
  match i with
  | .br .. | .sel .. | .loop .. => true
  | .call .. | .ret .. => if follows then taken else x.getQ q
  | .jmp .. | .jmpr .. => !follows && x.getQ q
  | _ => x.getQ q

/-- One issue of instruction i by the current slot (R41, R64): the checks before its own effect, then `body`. A
synchronisation point first waits for the slot's relaxed accesses and delivers a pending fault, whatever trap it would raise
itself (R214, R261). -/
def issue (i : Instr) (q : R4) (s : State) (body : SlotRef → Slot → State → Res) : Host.Outcome State Fault Refusal :=
  let r := s.cur
  let s := s.chargeIssue r
  let x := s.slot r
  let n := wordsOf i
  match x.capturing with
  | some f => .next (s.frameArrive r f i)
  | none =>
  let early := earlyTrap x i
  let s := s.setSlot r x.spend
  let x := s.slot r
  let acts := x.getQ q || readsGuard x i
  let sync := syncs i acts early x
  if sync && !x.drained 0 then .next (s.settle r n (.park s (.drainRelaxed 0)))
  else match (if sync then x.faults else []), early with
    | f :: rest, _ =>
      let s := (s.setSlot r { x with faults := [] }).abandonResv r i
      .next (s.settle r n (.trap (asyncTrap f (!rest.isEmpty))))
    | [], some t => .next (s.settle r n (.trap t))
    | [], none =>
      if !acts then .next (s.settle r n (.done s))
      else match placeTrap r i with
        | some c => .next (s.settle r n (trapOf c))
        | none =>
          if usesRegisters x r.place q i && x.relaxed.any fun a => a.blocks (gUse i) (vUse i) then .next (s.settle r n (.park s .scoreboard))
          else .next (s.settle r n (body r x s))

/-! Fetching (R64, R76, R78, R289, R290). -/

/-- What fetching a word answers: the word, SEGV with TADDR, a park, or a place that has to be read first: the offset of a far
word, its place and its address. -/
inductive Fetched where
  | word (w : Word)
  | trap (taddr : Dword)
  | park (p : Park)
  | far (off : Dword) (p : Spot) (va : Dword)
  deriving DecidableEq, Repr

/-- The word at a core-store offset, or at the far code of a control core, once it has been read (R289, R290). -/
def State.fetchWord (s : State) (r : SlotRef) (pc : BitVec 16) : Fetched :=
  let x := s.slot r
  match r.place with
  | .ctl sock n =>
    if x.cfs = 0 then
      if sock = 0 ∧ n = 0 ∧ !s.iod.romOff then
        .word (BitVec.ofNat 32 (ofLe ((List.range 4).map fun i => Config.bootRom (pc.toNat + i))))
      else .word (BitVec.ofNat 32 (s.num (storeKey (placeKey r.place) pc.toNat) 4))
    else
      let off := x.cfb + pc.zeroExtend 64
      match x.far.find? fun e => e.1 == off with
      | some e => .word e.2
      | none =>
        match s.segLook r (x.getS x.cfs) off 4 .fetch 4 with
        | .at p => .far off p (segAddr (x.getS x.cfs) off)
        | .trap _ a | .denied a => .trap a
        | .park p => .park p
  | _ => .word (BitVec.ofNat 32 (s.num (storeKey (placeKey r.place) pc.toNat) 4))

/-- What a slot issues next. -/
inductive Next where
  | ins (i : Instr) (pc : BitVec 16)
  | trap (t : TrapInfo) (pc : BitVec 16)
  | park (p : Park)
  | far (off : Dword) (p : Spot) (va : Dword)

/-- A word that follows a prefix and is itself a prefix (R41 step 3). -/
def secondPrefix (w : Word) (pending : Bool) : Bool := pending && w.extractLsb' 0 2 == 2

/-- Fetching an instruction from the core store or far code (R39, R64). -/
def State.fetchLocal (s : State) (r : SlotRef) (pc : BitVec 16) (pending : Bool) : Next :=
  if pc.extractLsb' 0 2 ≠ 0 then .ins (.notAnInstruction 0 .misaligned) pc
  else match s.fetchWord r pc with
    | .trap a => .trap { cause := cSEGV, taddr := a } pc
    | .park p => .park p
    | .far o p va => .far o p va
    | .word w =>
      if secondPrefix w pending then .ins (.notAnInstruction w .secondPrefix) pc
      else if wordBytes w = 8 then
        if pc = 0xFFFC then .ins (.notAnInstruction w .noWord1) pc
        else match s.fetchWord r (pc + 4) with
          | .trap a => .trap { cause := cSEGV, taddr := a } pc
          | .park p => .park p
          | .far o p va => .far o p va
          | .word w1 => .ins (decodeInstr w w1) pc
      else .ins (decodeInstr w 0) pc

/-- Whether a word stands in place of one that cannot be had (R83). -/
def StreamWord.stands (a : StreamWord) : Bool := a.marker || a.fail.isSome

/-- SEGV of a word that cannot be fetched (R135). -/
def fetchTrap (va : Nat) : TrapInfo := { cause := cSEGV, taddr := BitVec.ofNat 64 va }

/-- What an instruction meets in place of one of its words (R83): the marker, or the failed fetch. -/
def StreamWord.meets (b : StreamWord) (off : BitVec 16) : Next :=
  match b.fail with
  | some va => .trap (fetchTrap va) off
  | none => .ins (.streamImageEndMarker b.w) off

/-- Whether an instruction at an offset takes a second word: none follows the last offset, where such a word raises ILL (R64). -/
def takesWord1 (off : BitVec 16) (w : Word) : Bool := wordBytes w == 8 && off != 0xFFFC

/-- Whether the words that complete the instruction after a prefix are in the buffer (R52, R78). -/
def unitWhole : List StreamWord → Bool
  | [] => false
  | b :: more => b.stands || !takesWord1 b.off b.w || more != []

/-- The next word of a streamed slot (R78, R83); a prefix waits for its whole instruction. -/
def Slot.fetchStream (x : Slot) : Next :=
  match x.ahead with
  | [] => .park .emptyStream
  | a :: rest =>
    if a.stands then a.meets a.off
    else if secondPrefix a.w x.pre.isSome then .ins (.notAnInstruction a.w .secondPrefix) a.off
    else if takesWord1 a.off a.w then
      match rest with
      | [] => .park .emptyStream
      | b :: _ => if b.stands then b.meets a.off else .ins (decodeInstr a.w b.w) a.off
    else if wordBytes a.w = 8 then .ins (.notAnInstruction a.w .noWord1) a.off
    else if a.w.extractLsb' 0 2 = 2 && !unitWhole rest then .park .emptyStream
    else .ins (decodeInstr a.w 0) a.off

/-- What a repeat frame issues next: the prefix of its word, at an issue position of its own, then the word (R61, R67). -/
def Slot.fetchFrame (x : Slot) (f : Rpt) : Next :=
  match f.words[f.idx]? with
  | none => .park .emptyStream
  | some w => match w.pre, x.pre with
    | some p, none => .ins (.pfx p.rlx p.sat p.rm) x.pc
    | _, _ => .ins (stagger (f.j * f.vstep) w.ins) x.pc

/-- What the slot issues: the repeat sequencer's word, the stream's, or the one at PC. -/
def State.fetch (s : State) (r : SlotRef) : Next :=
  let x := s.slot r
  match x.stage with
  | .fetchFailed va => .trap (fetchTrap va) x.pc
  | _ =>
  match x.rpt with
  | some f => if f.missing = 0 then x.fetchFrame f else x.fetchStream
  | none => if x.streamed then x.fetchStream else s.fetchLocal r x.pc x.pre.isSome

end Sys2Proof.Machine
end

