-- ==== Sys2Proof/Machine/Link.lean ====
section
/-! DEFINITION. Packets the part sends on the fabric (R264, R265, R274-R277, R282). -/
namespace Sys2Proof.Machine

/-- Account of a slot (R282): the part's own work goes to account 0. -/
def State.acctOf (s : State) (r : SlotRef) : Nat := if isMesh r.place then (s.slot r).acct.toNat else 0

/-- A request leaves for a device (R265, R276); none when no valid entry names it. -/
def State.ask (s : State) (q : Request) (dev op cls asub acct len : Nat) (payload : List Byte) (mask : Dword := -1) : Option State :=
  match s.iod.route dev with
  | none => none
  | some p =>
    let q := { q with dev := dev, owner := (s.slot q.slot).owner.toNat, acct := acct, cls := cls, ctx := if isMesh q.slot.place then (s.site (placeKey q.slot.place)).launch else none }
    let s := s.transit (nodeOf q.slot.place) ioNode cls payload.length
    let pk : Packet :=
      { dst := dev, src := 0, sock := socketOf q.slot.place, cls := cls, owner := (s.slot q.slot).owner.toNat, op := op,
        tag := q.id % 2 ^ 32, addr := q.addr.toNat % 2 ^ 48, asub := asub, len := len, seq := 0, payload := payload, mask := mask }
    some ((s.modIod fun d => { d with requests := d.requests ++ [q] }).emit p acct pk)

/-- Port a packet of a device comes in on: the one that leads to the device. -/
def Iod.portOf (d : Iod) (dev : Nat) : Nat := (d.route dev).getD 0

/-- A packet with a payload of n bytes has come in whole on a port: it ends a row of failures, the next sequence number is expected,
and its flits are charged (R265, R277, R282). -/
def State.cameIn (s : State) (port n acct : Nat) : State :=
  (s.modIod fun d => d.setPort port { d.port port with fails := 0, expect := ((d.port port).expect + 1) % 2 ^ 16 }).charge acct 5
    (64 * fabricFlits n)

/-- An outstanding request of a device that a reply answers (R347): by its tag, a SENDT by the message's tag. -/
def Iod.request (d : Iod) (dev tag : Nat) : Option Request :=
  d.requests.find? fun q => q.dev == dev && (if q.what = .sendt then q.addr.toNat else q.id % 2 ^ 32) == tag
/-- Removing a request. -/
def Iod.answered (d : Iod) (id : Nat) : Iod := { d with requests := d.requests.filter fun q => q.id ≠ id }

/-- Inserting a fault at its place in issue order. -/
def insertFault (f : AsyncFault) : List AsyncFault → List AsyncFault
  | [] => [f]
  | g :: t => if f.id < g.id then f :: g :: t else g :: insertFault f t

/-- A slot parked at a synchronisation point that an event would complete issues it again, so that the fault comes before
it takes effect (R261). -/
def Status.interrupted : Status → Status
  | .parked (.recv ..) | .parked (.swait ..) | .parked (.pop ..) | .parked (.push ..) => .ready
  | s => s

/-- An asynchronous fault joins a slot's list, in issue order (R261). -/
def State.asyncFault (s : State) (r : SlotRef) (f : AsyncFault) : State :=
  s.modSlot r fun x => if x.status = Status.free then x else { x with faults := insertFault f x.faults, status := x.status.interrupted }

/-- A record enters the fault log, over the oldest of 256 (R264). -/
def Iod.logFault (d : Iod) (r : FaultRecord) : Iod :=
  let full := decide (256 ≤ d.faultLog.length)
  { d with
    faultLog := if full then d.faultLog.set d.flogIndex r else d.faultLog ++ [r]
    flogIndex := (d.flogIndex + 1) % 256
    flogDropped := d.flogDropped + full.toNat }

/-- A fault record with the time it is made at (R264). -/
def State.faultLog (s : State) (src owner kind addr : Nat) : State :=
  let s := s.tick
  s.modIod fun d => d.logFault { src := src, owner := owner, kind := kind, addr := addr, time := d.ns }

/-- A reply of the part leaves for a device, on account 0 (R275, R282); it is lost when no valid entry names the device. -/
def State.answer (s : State) (dev op tag addr asub cls owner : Nat) (payload : List Byte) : State :=
  match s.iod.route dev with
  | none => s
  | some p => s.emit p 0
      { dst := dev, src := 0, sock := 0, cls := cls, owner := owner, op := op, tag := tag, addr := addr, asub := asub, len := payload.length, seq := 0, payload := payload }

/-- The reply to a host's command (R295): status, q15, and at +24 the word or bytes of the command's result. -/
def State.hostReply (s : State) (device f code socket seq status : Nat) (q15 : Bool) (tail : List Byte) : State :=
  let body := leBytes 8 (3 + f % 2 ^ 8 * 2 ^ 8 + code * 2 ^ 16 + socket % 32 * 2 ^ 24 + seq % 2 ^ 32 * 2 ^ 32) ++ leBytes 8 status ++ leBytes 8 q15.toNat ++
    (tail ++ List.replicate 40 0).take 40
  s.answer device 12 0 0 0 0 0 body

/-- A host's command that waited is done. -/
def State.hostDone (s : State) (w : HostWait) (q15 : Bool) : State :=
  (s.modIod fun d => { d with hostWaits := d.hostWaits.filter (· ≠ w) }).hostReply w.device w.f w.code w.socket w.seq 0 q15 []

end Sys2Proof.Machine
end

