-- ==== Sys2Proof/Machine/Context.lean ====
section
/-! DEFINITION. Contexts and what is delivered to them: the scheduler's rules, the arrival log, mailboxes (R197-R203, R255,
R258, R266, R292, R350, R356). -/
namespace Sys2Proof.Machine

/-- Die of a turnstile's rectangle. -/
def Turnstile.die (t : Turnstile) : Nat := coreDie (rectLo t.rect)
/-- Whether a turnstile's context is loaded. -/
def Turnstile.isLoaded (t : Turnstile) : Bool := match t.ctx with | some c => c.loaded | none => false
/-- Owner of a turnstile's launch. -/
def Turnstile.owner (t : Turnstile) : Nat := match t.desc with | some d => d.owner.toNat | none => 0
/-- Class of a turnstile's launch. -/
def Turnstile.cls (t : Turnstile) : Nat := match t.desc with | some d => d.cls | none => 0
/-- Changing a turnstile's context. -/
def State.modCtx (s : State) (n : Nat) (f : Context → Context) : State :=
  s.modTst n fun t => { t with ctx := t.ctx.map f }
/-- The context of a turnstile. -/
def State.ctx (s : State) (n : Nat) : Option Context := (s.tst n).ctx
/-- The turnstile whose context is loaded on a core. -/
def State.loadedOn (s : State) (c : Nat) : Option Nat := (s.site c).launch
/-- The turnstile of a slot's launch; none in a control core. -/
def State.ctxOf (s : State) (r : SlotRef) : Option Nat := match r.place with | .mesh c => s.loadedOn c | _ => none
/-- A swapped-out context of an owner that has a core in its rectangle. -/
def State.outOn (s : State) (c owner : Nat) : Option Nat :=
  (s.turnstiles.find? fun e => e.2.ctx.isSome && !e.2.isLoaded && e.2.owner == owner && inRect e.2.rect c).map Prod.fst

/-- Key slot bound to an owner (R145). -/
def State.ownerKey (s : State) (owner : Nat) : Nat :=
  match s.keys.find? fun e => e.2 == owner + 1 with
  | some e => e.1
  | none => 0

/-! Scheduling (R255). -/

/-- Sites of the banks a swapped-out context has in its image. -/
def Context.evicted (c : Context) : List Nat :=
  match c.saved with
  | some v => (v.banks.filter fun b => b.image.isSome).map fun b => b.bank % 2 ^ 13
  | none => []

/-- Whether a loaded context stands in the way of a swapped-out one. -/
def overlaps (out held : Turnstile) : Bool :=
  rectsMeet out.rect held.rect ||
  match out.ctx with
  | some c => c.evicted.any (inRect held.rect)
  | none => false

/-- Loaded contexts that stand in the way of a context, by turnstile. -/
def State.inTheWay (s : State) (n : Nat) : List Nat :=
  (s.turnstiles.filter fun e => e.1 != n && e.2.isLoaded && overlaps (s.tst n) e.2).map Prod.fst

/-- Slots that issue for a context: of the cores of its rectangle, neither free nor benched. -/
def State.issuers (s : State) (n : Nat) : List SlotRef :=
  ((rectCores (s.tst n).rect).filter fun c => s.loadedOn c == some n).flatMap fun c =>
    (coreSlots c).filter fun r => (s.slot r).status != Status.free && (s.slot r).status != Status.benched

/-- An empty window in await mode (R103). -/
def Entry.awaits (e : Entry) : Bool := !e.att && !e.clm && !e.fault

/-- The parks that count towards idleness (R255); of the waits on a window, those on one that is empty in await mode. -/
def State.idlePark (s : State) (r : SlotRef) : Bool :=
  match (s.slot r).status with
  | .parked (.recv ..) | .parked (.swait ..) | .parked (.barw _) | .parked (.pop ..) | .parked (.nget _)
  | .parked .emptyStream => true
  | .parked (.window w) => (s.entry (placeKey r.place) w).awaits
  | _ => false

/-- Whether every slot that issues for a context is parked on such a cause. -/
def State.allIdle (s : State) (n : Nat) : Bool := (s.issuers n).all s.idlePark

/-- Whether a loaded context has to yield to a waiting one: a lower class at once, an idle one to any, the same class at the
end of its quantum; any to a context whose log is full (R258). -/
def State.yieldsTo (s : State) (held out : Nat) : Bool :=
  let h := s.tst held
  let o := s.tst out
  match h.ctx, o.ctx with
  | some c, some w =>
    o.cls < h.cls || (c.idle && s.allIdle held) || (o.cls == h.cls && c.expired) || w.logWait != []
  | _, _ => false

/-- Whether a waiting context has its cores, or may take them at once. -/
def State.mayEnter (s : State) (n : Nat) : Bool := (s.inTheWay n).all fun m => s.yieldsTo m n

/-- Inserting a pair by its first component. -/
def insertKey (e : Nat × Nat) : List (Nat × Nat) → List (Nat × Nat)
  | [] => [e]
  | f :: t => if e.1 < f.1 then e :: f :: t else f :: insertKey e t

/-- Waiting contexts in the order the scheduler prefers: class, then the longest wait. -/
def State.waitingList (s : State) : List Nat :=
  let w := s.turnstiles.filterMap fun e => match e.2.ctx with
    | some c => if !c.loaded && !c.held && c.waitingSince != 0 then some (e.2.cls * 2 ^ 64 + c.waitingSince, e.1) else none
    | none => none
  (w.foldl (fun l e => insertKey e l) []).map Prod.snd

/-- What the scheduler does for one waiting context: it is restored once its cores are free; contexts in its way that have
to yield are pre-empted. -/
def State.scheduleFor (s : State) (n : Nat) : State :=
  match s.inTheWay n with
  | [] => s.post (.restore n)
  | ms => s.posts ((ms.filter fun m => s.yieldsTo m n).map fun m => .preemption m n)

/-- The scheduler of the dies (R255, R258); it lets no context in while a checkpoint runs (R285). -/
def State.schedule (s : State) : State := if s.iod.ckptStatus = 1 then s else s.waitingList.foldl State.scheduleFor s

/-! What was sent (R197, R203). -/

/-- Dropping an entry of the record of what was sent. -/
def State.sentDone (s : State) (id : Nat) : State := { s with sends := s.sends.filter fun e => e.id ≠ id }

/-- Messages of one slot to one core keep their order: SENDs and notices (R203). -/
def SentKind.ordered : SentKind → Bool
  | .mail | .notice .. => true
  | _ => false
/-- Whether a record is that of a notice. -/
def SentKind.isNotice (k : SentKind) (m : Message) : Bool :=
  match k with
  | .notice _ n => n == m
  | _ => false

/-- The entry of the record that a message's arrival ends: the oldest of its sender and core (R203). -/
def State.sentMail (s : State) (core : Nat) (r : SlotRef) : Option Sent :=
  s.sends.find? fun e => e.slot == r && e.dst == core && e.kind.ordered

/-- Whether an earlier message of the same sender to the same core is neither placed nor logged nor dropped (R203). -/
def State.heldBack (s : State) (id : Nat) : Bool :=
  match s.sends.find? fun e => e.id == id with
  | none => false
  | some e => s.sends.any fun f => f.id < id && f.slot == e.slot && f.dst == e.dst && f.kind.ordered

/-- The record of an arrival notice (R114): a slot may have several on their way, each with its own. -/
def State.sentNotice (s : State) (core : Nat) (m : Message) : Option Sent := s.sends.find? fun e => e.dst == core && e.kind.isNotice m

/-- Whether a message is a notice that an earlier message of its slot holds back (R203). -/
def State.noticeHeld (s : State) (core : Nat) (m : Message) : Bool :=
  match s.sentNotice core m with
  | some e => s.heldBack e.id
  | none => false

/-- Sender that the header of a SEND names (R197). -/
def headerSender (h : Dword) : Option SlotRef :=
  if h.extractLsb' 0 8 ≠ 1 then none
  else
    let n := (h.extractLsb' 8 16).toNat
    if h.getLsbD 41 then some { place := .ctl (n / 8 % 2 ^ 10) (n % 8), k := n / 2 ^ 13 } else some (slotOfId n)

/-- A waiting message has been placed or logged: its sender's next may leave (R203). -/
def State.settledMail (s : State) (core : Nat) (m : Message) : State :=
  match (s.sentNotice core m).or ((headerSender m.header).bind (s.sentMail core)) with
  | some e => s.sentDone e.id
  | none => s

/-! The arrival log (R201, R202, R258). -/

/-- Bytes of a log entry (R202). -/
def logBytes (i : LogItem) : List Byte :=
  leBytes 8 (i.delivery + i.core * 2 ^ 8 + i.slot * 2 ^ 21 + i.num * 2 ^ 24) ++ leBytes 8 i.seq ++
    leBytes 8 i.payload.toNat ++ leBytes 8 i.header.toNat

/-- The first free entry of a ring from one on; the first argument bounds the search. An entry still in use is passed over (log 88). -/
def freeEntry (log : List LogItem) (size : Nat) : Nat → Nat → Nat
  | 0, k => k % size
  | f + 1, k => if log.any fun i => i.pos == k % size then freeEntry log size f (k + 1) else k % size

/-- An item enters the log, in a free entry: a swapped-out context is waiting from then on. A message that is logged no longer
holds its sender's next back (R203). -/
def State.logPut (s : State) (n : Nat) (i : LogItem) : State :=
  let t := s.tst n
  match t.ctx, t.desc with
  | some c, some d =>
    let i := { i with seq := c.logSeq, pos := freeEntry c.log (2 ^ d.logN) c.log.length c.logSeq }
    let s := s.physWrite (nodeOfKey i.core) (s.ownerKey d.owner.toNat) (d.logPA + 32 * i.pos) (logBytes i)
    let s := if i.delivery = 1 then s.settledMail i.core { header := i.header, payload := i.payload } else s
    let wakes := !c.loaded && c.waitingSince = 0
    let c := { c with log := c.log ++ [i], logSeq := c.logSeq + 1, waitingSince := if wakes then s.fresh else c.waitingSince }
    let s := s.bump.modTst n fun t => { t with ctx := some c }
    if wakes then s.schedule else s
  | _, _ => s

/-- A dword of an item's entry of the ring, as memory holds it (R202, R310). -/
def State.logDword (s : State) (n : Nat) (i : LogItem) (off : Nat) : Dword :=
  match (s.tst n).desc with
  | some d =>
    BitVec.ofNat 64 (ofLe (s.keyBytes (s.ownerKey d.owner.toNat) (d.logPA + 32 * i.pos + off) 8))
  | none => 0

/-- The message of a logged item. -/
def State.loggedMail (s : State) (n : Nat) (i : LogItem) : Message :=
  { payload := s.logDword n i 16, header := s.logDword n i 24 }

/-- An item for a context's log; it waits in the port while no entry is free, and a swapped-out context is then restored as
soon as can be (R258). -/
def State.logItem (s : State) (n : Nat) (i : LogItem) : State :=
  let t := s.tst n
  match t.ctx, t.desc with
  | some c, some d =>
    if c.logWait = [] ∧ c.log.length < 2 ^ d.logN then s.logPut n i
    else
      let s := s.modCtx n fun c => { c with logWait := c.logWait ++ [i] }
      if c.logWait ≠ [] then s
      else
        let s := s.duty (1 + t.die) 3 (1 + t.die) (BitVec.ofNat 64 n) false
        if c.loaded then s else s.schedule
  | _, _ => s

/-- Whether an item is a message for a mailbox. -/
def LogItem.mail (i : LogItem) (core mb : Nat) : Bool := (i.delivery == 1 || i.delivery == 5) && i.core == core && i.num == mb

/-- A logged item is read and leaves (R282); an item that waits in the port takes its entry, and moves on to its target when the
context is loaded (R201, R258). -/
def State.logDrop (s : State) (n : Nat) (i : LogItem) : State :=
  let s := match (s.tst n).desc with | some d => s.ownLines (nodeOfKey i.core) false (d.logPA + 32 * i.pos) 32 | none => s
  let s := s.modCtx n fun c => { c with log := c.log.filter (· ≠ i) }
  match s.ctx n with
  | some c =>
    match c.logWait with
    | w :: rest =>
      let s := (s.modCtx n fun c => { c with logWait := rest }).logPut n w
      if c.loaded then s.post (.arrivalLogMove w.core w.num) else s
    | [] => s
  | none => s

/-- The oldest logged item for a mailbox of a core. -/
def Context.logged (c : Context) (core mb : Nat) : Option LogItem :=
  c.log.find? fun i => i.mail core mb

/-- A message as a log item. -/
def mailItem (core mb : Nat) (m : Message) : LogItem :=
  { delivery := if m.header.extractLsb' 0 8 == 2 then 5 else 1, core := core, slot := 0, num := mb, seq := 0, payload := m.payload, header := m.header }

/-! Mailboxes (R199-R201, R350). -/

/-- The place of a site. -/
def placeOf (p : Nat) : Place :=
  if p < 8192 then .mesh p else if p < 16384 then .ctl ((p - 8192) / 8) ((p - 8192) % 8) else .carousel (p - 16384)
/-- The slots of a site. -/
def slotsAt (p : Nat) : List SlotRef := (List.range 8).map fun k => { place := placeOf p, k := k }

/-- The slot of a list that parked first among those that satisfy a test (R200, R206). -/
def State.firstParked (s : State) (rs : List SlotRef) (f : Park → Bool) : Option SlotRef :=
  rs.foldl (fun b r =>
    match (s.slot r).status with
    | .parked p =>
      if f p then match b with
        | none => some r
        | some a => if (s.slot r).since < (s.slot a).since then some r else b
      else b
    | _ => b) none

/-- Popping a firing message lowers OUT (R251, R350); counting resumes below 4. -/
def State.popped (s : State) (m : Message) : State :=
  if m.header.extractLsb' 0 8 == 2 then
    let n := (m.header.extractLsb' 8 10).toNat
    let s := s.modTst n fun t => { t with out := t.out - 1 }
    if (s.tst n).held = [] then s else s.post (.turnstileCountResume n)
  else s

/-- Registers after a RECV from mailbox j into pair p (R199). -/
def recvRegs (x : Slot) (p : BitVec 3) (j : Nat) (m : Message) : Slot :=
  let d : R4 := p ++ (0 : BitVec 1)
  (x.setG d m.payload).setG (d + 1) (m.header ||| BitVec.ofNat 64 (j * 2 ^ 60))

/-- A message is placed in a mailbox with room: a RECV parked on it takes it (R200). -/
def State.placeMail (s : State) (p mb : Nat) (m : Message) : State :=
  let waits (q : Park) : Bool := match q with
    | .recv mask _ => mask.getLsbD mb
    | _ => false
  match (if (s.site p).mail mb = [] then s.firstParked (slotsAt p) waits else none) with
  | some r =>
    match (s.slot r).status with
    | .parked (.recv _ pr) => (s.complete r 1 fun x => recvRegs x pr mb m).popped m
    | _ => s
  | none => s.modSite p fun x => { x with mb := tset [] x.mb mb (x.mail mb ++ [m]) }

/-- The context, loaded on a core, whose log or port holds messages for a mailbox: later ones follow them (R201, R258). -/
def State.mailLogged (s : State) (p mb : Nat) : Option Nat :=
  match s.loadedOn p with
  | none => none
  | some n =>
    match s.ctx n with
    | some c => if (c.log ++ c.logWait).any fun i => i.mail p mb then some n else none
    | none => none

/-- The oldest message that waits in the network for a mailbox and that nothing holds back (R201, R203). -/
def State.firstWaiting (s : State) (p mb : Nat) : Option Message := ((s.site p).waiting mb).find? fun m => !s.noticeHeld p m

/-- A message no longer waits in the network for a mailbox. -/
def State.unwait (s : State) (p mb : Nat) (m : Message) : State :=
  s.modSite p fun x => { x with mbWait := tset [] x.mbWait mb ((x.waiting mb).erase m) }

/-- A mailbox has a free entry (R201): the oldest logged message is to move in, else the oldest that waits in the
network and is not held back (R203). -/
def State.mailFree (s : State) (p mb : Nat) : State :=
  match s.mailLogged p mb with
  | some _ => s.post (.arrivalLogMove p mb)
  | none =>
    match s.firstWaiting p mb with
    | none => s
    | some m => ((s.unwait p mb m).settledMail p m).placeMail p mb m

/-- Whether a message for a mailbox has to wait in the network: it is full, others wait that nothing holds back (R201), or it is a
notice that is held back (R203). -/
def State.mailWaits (s : State) (p mb : Nat) (m : Message) : Bool :=
  s.noticeHeld p m || ((s.mailLogged p mb).isNone && (8 ≤ ((s.site p).mail mb).length || (s.firstWaiting p mb).isSome))

/-- A message comes to a mailbox of a site whose context is loaded, or of a control core, whose messages wait there
and are never diverted (R292). A duty event adds nothing while one of its code and socket waits. -/
def State.mailTo (s : State) (p mb : Nat) (m : Message) : State :=
  if s.mailWaits p mb m then
    if m.header.extractLsb' 0 8 == 0x0A && ((s.site p).waiting mb).any fun w => w.header == m.header then s
    else
      let s := s.modSite p fun x => { x with mbWait := tset [] x.mbWait mb (x.waiting mb ++ [m]) }
      if p < 8192 then s.post (.mailboxDivert p mb) else s
  else match s.mailLogged p mb with
    | some n => s.logItem n (mailItem p mb m)
    | none => (s.settledMail p m).placeMail p mb m

/-! What a slot sent (R198, R203, R356). -/

/-- An asynchronous fault of a slot, which is saved with its context while that is swapped out (R70, R256). -/
def State.faultOf (s : State) (r : SlotRef) (ctx : Option Nat) (f : AsyncFault) : State :=
  if ctx = s.ctxOf r then (if (s.slot r).status ≠ Status.free then s.asyncFault r f else s)
  else
    match ctx with
    | none => s
    | some n => s.modCtx n fun c => { c with saved := c.saved.map fun v =>
        { v with slots := v.slots.map fun x =>
            if x.1 = slotKey r then (x.1, { x.2 with faults := insertFault f x.2.faults }) else x } }

/-- The sender of something that was not delivered takes RWR at its next synchronisation point (R198, R265). -/
def State.undelivered (s : State) (e : Sent) (taddr reason : Nat) : State :=
  s.faultOf e.slot e.ctx { id := e.id, tepc := e.tepc, cause := cRWR, taddr := BitVec.ofNat 64 taddr, reason := reason }

/-- What finds no target is not delivered, with REASON 2 (R198). -/
def State.noTarget (s : State) (e : Sent) (taddr : Nat) : State := s.undelivered e taddr 2

/-- Where something for a core goes. -/
inductive Target where
  | site | log (n : Nat) | drop
  deriving DecidableEq, Repr

/-- The target of what a streamer sends for a context (R319): the core while the context is loaded there, its log while it is
swapped out; what is for a context that has ended is dropped. -/
def State.toContext (s : State) (c : Nat) (ctx : Option Nat) : Target :=
  match ctx with
  | none => if 8192 ≤ c then .site else .drop
  | some n =>
    if s.loadedOn c = some n then .site
    else if (s.ctx n).isSome && !(s.tst n).isLoaded then .log n
    else .drop

/-- The target of something sent under an owner (R198, R201): the loaded context of that owner on the core, else its
swapped-out context. What the part itself posts goes to the loaded context whatever its owner. -/
def State.target (s : State) (c owner : Nat) (own : Bool) : Target :=
  if 8192 ≤ c then .site
  else if s.dead c then .drop
  else
    let loaded := match s.loadedOn c with
      | some n => !own || (s.tst n).owner == owner
      | none => false
    if loaded then .site
    else match s.outOn c owner with
      | some n => .log n
      | none => .drop

/-! Slots that stop (R232, R256, R289). -/

/-- Whether a slot keeps a pre-emption waiting (R52, R117, R232, R256): a pending prefix, an access or a call under way, a held
reservation. -/
def State.slotHolds (s : State) (r : SlotRef) : Bool :=
  let x := s.slot r
  !x.relaxed.isEmpty || (match x.resv with | some v => v.held | none => false) ||
  match x.status with
  | .ready => x.pre.isSome || (match x.stage with | .appended _ | .readDone .. => true | _ => false)
  | .parked (.remote _) | .parked (.hovr ..) | .parked .sendt => true
  | .parked (.append n ..) => !(2 ^ logN (s.obj n).w0 ≤ (s.obj n).tail - (s.obj n).trim)
  | _ => false

/-- Reads and waits of a call are abandoned (R232): nothing answers the slot any more. -/
def State.abandonRead (s : State) (r : SlotRef) : State :=
  (List.range 8).foldl (fun s d =>
    let s := s.modDie d fun x => { x with reads := x.reads.filter fun q => q.caller ≠ r }
    (List.range 8).foldl (fun s k =>
      let c : SlotRef := { place := .carousel d, k := k }
      s.modSlot c fun x => { x with method := x.method.map fun m => if m.caller = some r then { m with caller := none } else m }) s) s

end Sys2Proof.Machine
end

