-- ==== Sys2Proof/Machine/Objects.lean ====
section
/-! DEFINITION. Descriptors of replayed objects, and the objects of an image (R215, R218, R229, R232, R298, R299). -/
namespace Sys2Proof.Machine

/-- STATE. -/
def stateUnits (w2 : Dword) : Nat := (w2.extractLsb' 0 13).toNat
/-- MTAB. -/
def mtab (w2 : Dword) : Nat := (w2.extractLsb' 16 16).toNat
/-- BUDGET; 0 means 2^20. -/
def budgetOf (w2 : Dword) : Nat := let b := (w2.extractLsb' 32 20).toNat; if b = 0 then 2 ^ 20 else b
/-- Pool banks a replica takes (R218). -/
def poolBanks (w2 : Dword) : Nat := (64 * stateUnits w2 + 65535) / 65536

/-- Fields of a descriptor in range (R215). -/
def fieldsOk (w0 w1 w2 : Dword) : Bool :=
  w0.extractLsb' 32 8 != 0 && 10 ≤ logN w0 && logN w0 ≤ 16 && w1.extractLsb' 0 16 == 0 &&
  (w1.extractLsb' 0 48).toNat + 64 * 2 ^ logN w0 ≤ dramTop &&
  1 ≤ stateUnits w2 && stateUnits w2 ≤ 4096 && mtab w2 % 128 == 0

/-- Pool banks of a die that no replica holds. -/
def State.freePool (s : State) (d : Nat) : List Nat :=
  (List.range 64).filter fun b => !(s.die d).replicas.any fun e => e.2.pool.contains b

/-- Writing zeros over whole words of a run: their marks go (R122). -/
def State.zeroRun (s : State) (k n : Nat) : State :=
  (s.setBytes k (List.replicate n 0)).clearPoison { pos := 0, key := k, n := n, tag := 0 }

/-- A replica is made on a die: zero state, applied position 0 (R215). -/
def State.makeReplica (s : State) (n d : Nat) (w2 : Dword) : State :=
  let banks := (s.freePool d).take (poolBanks w2)
  let s := s.modReplica d n fun _ => { pool := banks }
  (List.range (stateUnits w2)).foldl (fun s i => s.zeroRun (s.blockKey d n (64 * i)) 64) s

/-- OBJECT_CREATE (R215): a write of V = 1 to word 0 of an object whose V is 0. -/
def State.objectCreate (s : State) (n : Nat) (w0 : Dword) : State :=
  let o := s.obj n
  let keep (e : Nat) : Dword := (w0 &&& 0x000FFFFFFFFF0000) ||| BitVec.ofNat 64 (2 * e)
  if o.busy then s.modObj n fun o => { o with w0 := keep 3 }
  else if !fieldsOk w0 o.w1 o.w2 then s.modObj n fun o => { o with w0 := keep 1 }
  else if (replDies w0).any fun d => (s.freePool d).length < poolBanks o.w2 then s.modObj n fun o => { o with w0 := keep 2 }
  else
    let s := s.modObj n fun o => { w0 := keep 0 ||| 1, w1 := o.w1, w2 := o.w2 }
    (replDies w0).foldl (fun s d => s.makeReplica n d o.w2) s

/-- Object that a parked call waits on (R232). -/
def waitsOn (x : Slot) : Option Nat :=
  match x.status with
  | .parked (.append n ..) | .parked (.applied n _) | .parked (.tail n) | .parked (.trim n _)
  | .parked (.read _ n) | .parked (.readRoom _ n) => some n
  | _ => none

/-- A call that waits ends without its object (R232). -/
def Slot.calledOff (x : Slot) : Slot :=
  { x with stage := .noObject (match x.stage with | .appended p => p | _ => 0), status := .ready }

/-- Calls that wait end when V is cleared (R232), those of swapped-out contexts too. -/
def State.wakeCallers (s : State) (n : Nat) : State :=
  let s := s.slots.foldl (fun s e =>
    if waitsOn e.2 = some n then { s with slots := tset {} s.slots e.1 e.2.calledOff } else s) s
  { s with turnstiles := s.turnstiles.map fun e => (e.1, { e.2 with ctx := e.2.ctx.map fun c =>
      { c with saved := c.saved.map fun v =>
        { v with slots := v.slots.map fun e => (e.1, if waitsOn e.2 = some n then e.2.calledOff else e.2) } } }) }

/-- V is cleared (R215, R232): the calls that wait end, and the object is busy being destroyed. -/
def State.clearValid (s : State) (n : Nat) : State :=
  if !(s.obj n).valid then s
  else (s.modObj n fun o => { w0 := o.w0 &&& ~~~1, w1 := o.w1, w2 := o.w2, busy := true }).wakeCallers n

/-- A write that clears V (R215, R232): the destruction begins. -/
def State.objectClear (s : State) (n : Nat) : State :=
  if !(s.obj n).valid then s else (s.clearValid n).post (.objectDestroy n)

/-- OBJECT_DESTROY (R215, R232): the log and every replica are discarded. No other destruction of the object is under way then. -/
def State.objectDestroy (s : State) (n : Nat) : State :=
  let s := s.clearValid n
  if !(s.obj n).busy then s else
    let s : State := { s with work := s.work.filter (· ≠ .objectDestroy n) }
    let s := (List.range 8).foldl (fun s d =>
      let s := s.modDie d fun x =>
        { x with replicas := tdel x.replicas n, reads := x.reads.filter fun q => q.obj ≠ n }
      (List.range 8).foldl (fun s k =>
        let r : SlotRef := { place := .carousel d, k := k }
        match (s.slot r).method with
        | some m => if m.obj = n then s.setSlot r {} else s
        | none => s) s) s
    (s.modObj n fun o => { o with busy := false }).posts
      ((List.range 8).flatMap fun d => [.carouselApply d, .carouselRead d])

/-- A write of the whole value of word i of a descriptor (R215). -/
def State.objectWrite (s : State) (n i : Nat) (v : Dword) : State :=
  let o := s.obj n
  if o.valid then
    if i = 0 ∧ !v.getLsbD 0 then s.objectClear n else s
  else match i with
    | 0 =>
      if v.getLsbD 0 then s.objectCreate n v
      else s.modObj n fun o => { o with w0 := (v &&& 0x000FFFFFFFFF0000) ||| (o.w0 &&& 6) }
    | 1 => s.modObj n fun o => { o with w1 := v &&& 0x0000FFFFFFFF0000 }
    | 2 => s.modObj n fun o => { o with w2 := v &&& 0x000FFFFFFF801FFF }
    | _ => s

/-- Word i of a descriptor (R215). -/
def Object.word (o : Object) (i : Nat) : Dword :=
  match i with
  | 0 => o.w0 | 1 => o.w1 | 2 => o.w2 | 3 => BitVec.ofNat 64 o.tail | 4 => BitVec.ofNat 64 o.trim | _ => 0

/-! Objects of an image (R298, R299; when they are made and what an image declares: DESIGN CHOICE, log 76). -/

/-- Entries of a method table for an image placed at a base (R299). -/
def methodTable (p : ObjectPlan) (base : Nat) : List Byte :=
  (List.range 64).flatMap fun j => leBytes 2 (match p.methods[j]? with
    | some (o, ro) => base + o + 1 + 2 * ro.toNat
    | none => 0)

/-- Whether two runs share no byte. -/
def apartRuns (a m b n : Nat) : Bool := m == 0 || n == 0 || a + m ≤ b || b + n ≤ a

/-- Whether a run of core-store bytes is free of the objects of a die. -/
def State.codeFree (s : State) (d base len : Nat) : Bool :=
  s.objects.all fun e =>
    let o := e.2
    !(o.valid || o.busy) || !o.repl d || (apartRuns base len (tget 0 o.code d) o.codeLen && apartRuns base len (mtab o.w2) 128)

/-- Places for code in a core store: multiples of 128 below the window stacks. -/
def codePlaces : List Nat := (List.range 480).map (128 * ·)

/-- The lowest place of a die for an image of a length beside a table (R299). -/
def State.imagePlace (s : State) (len table d : Nat) : Option Nat :=
  codePlaces.find? fun b => b + len ≤ 0xF000 && s.codeFree d b len && apartRuns b len table 128

/-- The lowest place for a method table that is free on every die and leaves each room for the image, and the places of the images
(R299). MTAB is one field, so that the table lies at one place on all dies. -/
def State.codePlace (s : State) (dies : List Nat) (len : Nat) : Option (Nat × List (Nat × Nat)) :=
  codePlaces.findSome? fun t =>
    if !dies.all fun d => s.codeFree d t 128 then none
    else
      let bs := dies.filterMap fun d => (s.imagePlace len t d).map fun b => (d, b)
      if bs.length = dies.length then some (t, bs) else none

/-- The least k with n at most 2^k, from k on. -/
def log2Up (n : Nat) : Nat → Nat → Nat
  | 0, k => k
  | f + 1, k => if n ≤ 2 ^ k then k else log2Up n f (k + 1)

/-- Bytes of an object's log. -/
def Object.logBytes (o : Object) : Nat := 64 * 2 ^ logN o.w0

/-- Where a log of n bytes is allocated (R298): at a free choice, or where that is taken at the lowest place of DRAM that no other log
takes. Such a place is always there: a log takes at most 4 MiB (R215). -/
def State.logPlace (s : State) (n : Nat) : Nat :=
  let used := s.objects.filter fun e => e.2.valid || e.2.busy
  let at_ (o : Object) : Nat := (o.w1.extractLsb' 0 48).toNat
  let free (a : Nat) : Bool := a + n ≤ dramTop && used.all fun e => apartRuns a n (at_ e.2) e.2.logBytes
  let first := Config.logArea s.draws % ((dramTop - n) / 2 ^ 16 + 1) * 2 ^ 16
  let ends := used.map fun e => (at_ e.2 + e.2.logBytes + 0xFFFF) / 2 ^ 16 * 2 ^ 16
  if free first then first else (ends.filter free).foldl min (if free 0 then 0 else dramTop)

/-- Penvis creates an object for an owner on the dies of REPL (R298, R299): its number, or why it is not created. -/
def State.createObject (s : State) (owner key : Nat) (dies : List Nat) (p : ObjectPlan) : (Nat ⊕ Nat) × State :=
  match (List.range 256).find? fun n => !(s.obj n).valid with
  | none => (.inr 0, s)
  | some n =>
    match s.codePlace dies p.code.length with
    | none => (.inr 4, s)
    | some (table, bases) =>
      let k := log2Up p.entries 17 0
      let log := s.logPlace (64 * 2 ^ k)
      let s := bases.foldl (fun (s : State) e =>
        let store := storeKey (placeKey (.carousel e.1))
        (s.setBytes (store e.2) p.code).setBytes (store table) (methodTable p e.2)) (s.drawn 1)
      let s := s.objectWrite n 1 (BitVec.ofNat 64 log)
      let s := s.objectWrite n 2 (BitVec.ofNat 64 ((p.state + 63) / 64 + table * 2 ^ 16))
      let repl := dies.foldl (fun m d => m + 2 ^ d) 0
      let s := s.objectWrite n 0 (BitVec.ofNat 64 (1 + owner * 2 ^ 16 + repl * 2 ^ 32 + k * 2 ^ 40 + key * 2 ^ 44))
      if (s.obj n).valid then (.inl n, s.modObj n fun o => { o with code := bases.foldl (fun t e => tset 0 t e.1 e.2) [], codeLen := p.code.length })
      else (.inr ((s.obj n).w0.extractLsb' 1 2).toNat, s)

/-- Objects are created in source order; one that is not takes those before it away again (R298). -/
def State.createObjects (s : State) (owner key : Nat) (dies : List Nat) (made : List Nat) : List ObjectPlan → (List Nat ⊕ Nat) × State
  | [] => (.inl made, s)
  | p :: t =>
    match s.createObject owner key dies p with
    | (.inl n, s) => s.createObjects owner key dies (made ++ [n]) t
    | (.inr c, s) => (.inr c, made.foldl State.objectClear s)

/-- Dies of rectangles, in ascending order. -/
def rectDies (rs : List Word) : List Nat := (List.range 8).filter fun d => rs.any fun r => (r.extractLsb' 10 3).toNat == d

/-- The loaded launch that a core-store image belongs to. -/
def State.planOf (s : State) (store : Nat) : Option LoadedPlan := tget none s.plans store

/-- A launch is not loaded: its requester is told the cause (R298). -/
def State.refuseLoad (s : State) (p : LaunchPlan) (cause : Nat) : State :=
  s.modIod fun i => { i with mgmt := i.mgmt ++ [.loadRefused p.store cause] }

/-- The objects of an image, created with the first of its launches, or why they are not (R298). A refusal turns away every launch of
the image; one that asks a second time is a new load. -/
def State.imageObjects (s : State) (key : Nat) (p : LaunchPlan) : (List Nat ⊕ Nat) × State :=
  let made := tget [] s.shared p.image
  let bad := tget {} s.refusedImages p.image
  if made ≠ [] ∨ p.shared = [] then (.inl made, s)
  else if bad.stores ≠ [] ∧ !bad.stores.contains p.store then
    (.inr bad.cause, { s with refusedImages := tset {} s.refusedImages p.image { bad with stores := bad.stores ++ [p.store] } })
  else
    match s.createObjects p.owner key (rectDies (p.rect :: p.rects)) [] p.shared with
    | (.inl ns, s) =>
      (.inl ns, { s with shared := tset [] s.shared p.image ns, refusedImages := tset {} s.refusedImages p.image { bad with cause := 0, stores := [] } })
    | (.inr c, s) => (.inr c, { s with refusedImages := tset {} s.refusedImages p.image { cause := c, stores := [p.store], own := bad.own } })

/-- Whether a loaded launch of an image remains. -/
def State.imageUsed (s : State) (image : Nat) : Bool := s.plans.any fun e => match e.2 with
  | some l => l.plan.image == image
  | none => false

/-- The objects of an image go with its last launch (R298). -/
def State.dropImage (s : State) (image : Nat) : State :=
  if s.imageUsed image then s
  else { (tget [] s.shared image).foldl State.objectClear s with shared := tset [] s.shared image [] }

/-- A launch of an image is turned away for a reason of its own (R254, R298). Once no launch of the image is left to load, the image's
objects go. -/
def State.turnAway (s : State) (p : LaunchPlan) (cause : Nat) : State :=
  let bad := tget {} s.refusedImages p.image
  let bad := { bad with own := bad.own.filter (· ≠ p.store) ++ [p.store] }
  let s : State := { s with refusedImages := tset {} s.refusedImages p.image bad }
  (if p.rects.length ≤ bad.own.length then s.dropImage p.image else s).refuseLoad p cause

/-- A rectangle of the same height and width at an origin, where the die has room for it (R254). -/
def rectAt (r : Word) (o : Nat) : Option Word :=
  let h := coreRow (rectHi r) - coreRow (rectLo r)
  let w := coreCol (rectHi r) - coreCol (rectLo r)
  if coreRow o + h < 32 ∧ coreCol o + w < 32 then some (BitVec.ofNat 32 (o + (o + 32 * h + w) * 2 ^ 16)) else none

/-- Whether a rectangle holds only usable cores. -/
def State.usableRect (s : State) (r : Word) : Bool := !(rectCores r).any s.dead

/-- The rectangle a launch is placed in (R254): the one it asks for, or that at the lowest-numbered origin of its die whose cores are all
usable. A host with the arming-policy duty chooses in place of Penvis. -/
def State.placed (s : State) (r : Word) : Option Word :=
  if s.usableRect r || s.iod.duty.getLsbD 4 then some r
  else (List.range 1024).findSome? fun i => (rectAt r (1024 * coreDie (rectLo r) + i)).filter s.usableRect

/-- Penvis loads a launch at its place (R298): its image's objects and its own are created, and their numbers written to
its data section; or it is refused, and what was created for it is destroyed. -/
def State.loadPlaced (s : State) (p : LaunchPlan) : State :=
  let key := s.ownerKey p.owner
  match s.imageObjects key p with
  | (.inr c, s) => s.refuseLoad p c
  | (.inl ns, s) =>
    match s.createObjects p.owner key (rectDies [p.rect]) [] p.own with
    | (.inr c, s) => s.turnAway p c
    | (.inl own, s) =>
      let bad := tget {} s.refusedImages p.image
      let s : State := { s with
        plans := tset none s.plans p.store (some { plan := p, own := own })
        refusedImages := tset {} s.refusedImages p.image { bad with own := bad.own.filter (· ≠ p.store) } }
      if ns ++ own = [] then s else s.physWrite ioNode key p.data ((ns ++ own).flatMap fun k => leBytes 8 k)

/-- Penvis loads a launch (R254, R298), before it is armed; a launch with no place is refused. -/
def State.loadLaunch (s : State) (p : LaunchPlan) : State :=
  match s.placed p.rect with
  | none => s.turnAway p 5
  | some r => s.loadPlaced { p with rect := r }

/-- A launch is disarmed (R298): its own objects are destroyed, and those of its image with the image's last launch. -/
def State.unloadLaunch (s : State) (store : Nat) : State :=
  match s.planOf store with
  | none => s
  | some l =>
    let s : State := { s with plans := tset none s.plans store none }
    (l.own.foldl State.objectClear s).dropImage l.plan.image

end Sys2Proof.Machine
end

