-- ==== Sys2Proof/Machine/Mmio.lean ====
section
/-! DEFINITION. MMIO registers (R2, R16, R18, R20, R21, R123, R124, R127, R134, R138, R140, R143, R215, R218, R247, R264,
R272, R276-R278, R280, R282, R285, R288, R289, R293, R388). -/
namespace Sys2Proof.Machine

/-- A register, or a byte of a memory that an MMIO window shows. -/
inductive Reg where
  | pasg | cmap (row : Nat) | cmapst | bcmd | pfqh | pfqv | portNear | portFar | oroot (i : Nat) | capp (n : Nat)
  | bstat (bank : Nat) | router (core i : Nat) | ccrun (n : Nat) | migc
  | object (n i : Nat) | tst (n i : Nat) | flog (i j : Nat) | flogh | duty | dutyHost (f : Nat) | devid | devt (i : Nat)
  | tcal (s : Nat) | mr (i : Nat) | ckpt | portst (p : Nat) | account (i : Nat) | ccrom
  | mem (key : Nat)
  deriving DecidableEq, Repr

/-- Control cores of a socket (R286). -/
def ctlCount (sock : Nat) : Nat := if sock = 0 then 8 else if sock ≤ 8 then 4 else 0

/-- Register at an offset of a compute die's window, with its first byte and its size. -/
def dieReg (d off : Nat) : Option (Reg × Nat × Nat) :=
  let sock := d + 1
  let w (lo n size : Nat) (k : Nat → Reg) : Option (Reg × Nat × Nat) :=
    if lo ≤ off ∧ off < lo + n * size then some (k ((off - lo) / size), lo + (off - lo) / size * size, size) else none
  let byte (lo n : Nat) (k : Nat → Nat) : Option (Reg × Nat × Nat) :=
    if lo ≤ off ∧ off < lo + n then some (.mem (k (off - lo)), off, 1) else none
  (w 0x1000 32 4 .cmap) <|> (w 0x1080 1 4 fun _ => .cmapst) <|> (w 0x2000 1 8 fun _ => .bcmd) <|>
  (w 0x4000 1 8 fun _ => .pfqh) <|> (w 0x4008 1 8 fun _ => .pfqv) <|> (w 0x5000 1 8 fun _ => .portNear) <|>
  (w 0x5008 1 8 fun _ => .portFar) <|> (w 0x6000 64 8 .oroot) <|> (w 0x7000 256 8 .capp) <|>
  (w 0x100000 8192 8 fun n => .bstat (n % 8 * 2 ^ 13 + d * 2 ^ 10 + n / 8)) <|>
  (byte 0x200000 0x200000 fun o => segStoreKey (d * 1024 + o / 0x800) (o % 0x800)) <|>
  (w 0x400000 4096 8 fun n => .router (d * 1024 + n / 4) (n % 4)) <|>
  (byte 0x800000 0x40000 fun o => storeKey (placeKey (.ctl sock (o / 0x10000))) (o % 0x10000)) <|>
  (byte 0x840000 0x2000 fun o => segStoreKey (placeKey (.ctl sock (o / 0x800))) (o % 0x800)) <|>
  (w 0x844000 4 8 .ccrun)

/-- Register at an offset of the I/O die's window. -/
def iodReg (off : Nat) : Option (Reg × Nat × Nat) :=
  let w (lo n size : Nat) (k : Nat → Reg) : Option (Reg × Nat × Nat) :=
    if lo ≤ off ∧ off < lo + n * size then some (k ((off - lo) / size), lo + (off - lo) / size * size, size) else none
  let byte (lo n : Nat) (k : Nat → Nat) : Option (Reg × Nat × Nat) :=
    if lo ≤ off ∧ off < lo + n then some (.mem (k (off - lo)), off, 1) else none
  (if off % 64 < 48 then w 0x80000 2048 8 (fun n => .object (n / 8) (n % 8)) else none) <|>
  (w 0xC0000 2048 8 fun n => .tst (n / 2) (n % 2)) <|> (w 0xD0000 1024 8 fun n => .flog (n / 4) (n % 4)) <|>
  (w 0xD2000 1 8 fun _ => .flogh) <|> (w 0xE0000 1 8 fun _ => .duty) <|> (w 0xE0008 7 8 .dutyHost) <|>
  (w 0xE0FF8 1 8 fun _ => .devid) <|> (w 0xE1000 1024 8 .devt) <|> (w 0xE3000 17 8 .tcal) <|> (w 0xE4000 8 32 .mr) <|>
  (w 0xE5000 1 8 fun _ => .ckpt) <|> (w 0xE6000 72 8 .portst) <|> (w 0xF0000 2048 8 .account) <|>
  (byte 0x100000 0x80000 fun o => storeKey (placeKey (.ctl 0 (o / 0x10000))) (o % 0x10000)) <|>
  (byte 0x180000 0x4000 fun o => segStoreKey (placeKey (.ctl 0 (o / 0x800))) (o % 0x800)) <|>
  (w 0x184000 8 8 .ccrun) <|> (w 0x184040 1 8 fun _ => .ccrom)

/-- Register at an offset of a socket's window. -/
def regAt (sock off : Nat) : Option (Reg × Nat × Nat) :=
  if off < 4 then (if sock ≤ 16 then some (.pasg, 0, 4) else none)
  else if sock = 0 then iodReg off
  else if sock ≤ 8 then dieReg (sock - 1) off
  else if sock ≤ 16 ∧ 0x2000 ≤ off ∧ off < 0x2008 then some (.migc, 0x2000, 8) else none

/-! Values. -/

/-- BSTAT of a bank (R123); a bank of an unusable core does not appear (R17). -/
def State.bstat (s : State) (n : Nat) : Nat :=
  if s.dead (n % 2 ^ 13) then 0 else
    let b := s.bank n
    let poison := s.poison.any fun e => bankKey n 0 ≤ e.1 && e.1 < bankKey n 0 + 2 ^ 16
    b.att.toNat + b.fallow.toNat * 2 + b.revoked.toNat * 4 + poison.toNat * 8 + b.win * 2 ^ 4 +
      (b.core.getD (n % 2 ^ 13)) * 2 ^ 8 + b.owner.toNat * 2 ^ 24 + b.gen.toNat * 2 ^ 40 + b.ce.toNat * 2 ^ 56

/-- RUN bits of a control core (R289). -/
def State.runBits (s : State) (sock n : Nat) : Nat :=
  (List.range 8).foldl (fun v k =>
    if (s.slot { place := .ctl sock n, k := k }).status = Status.free then v else v + 2 ^ k) 0

/-- PASG of a socket (R12): its number, 0 the I/O die, 1 a compute die, 2 a memory die, and the stepping. -/
def pasg (sock : Nat) : Nat := sock + (if sock = 0 then 0 else if sock ≤ 8 then 1 else 2) * 2 ^ 5 + 2 ^ 8

/-- A register's value. -/
def State.regGet (s : State) (sock : Nat) : Reg → Nat
  | .pasg => pasg sock
  | .cmap row => (tget 0 s.fuses ((sock - 1) * 32 + row) ||| tget 0 (s.die (sock - 1)).marks row).toNat
  | .cmapst => (s.die (sock - 1)).cmapst.toNat
  | .bcmd => (s.die (sock - 1)).bcmd.toNat
  | .pfqh => match (s.die (sock - 1)).pfq with | e :: _ => e.h.toNat | [] => 0
  | .pfqv => match (s.die (sock - 1)).pfq with | e :: _ => e.v.toNat | [] => 0
  | .portNear => (s.die (sock - 1)).portNear.toNat
  | .portFar => (s.die (sock - 1)).portFar.toNat
  | .oroot i => (tget 0 (s.die (sock - 1)).oroot i).toNat
  | .capp n => (s.replica (sock - 1) n).applied
  | .bstat n => s.bstat n
  | .router c i =>
    let x : Router := tget {} s.routers c
    (match i with | 0 => x.flits | 1 => x.drove | 2 => x.stile | _ => x.stall).toNat
  | .ccrun n => let r := s.runBits sock n; r + (255 - r) * 2 ^ 8
  | .migc => let m := s.md (sock - 9); (m.status == 1).toNat + m.status * 2 + m.block.toNat * 2 ^ 6
  | .object n i => ((s.obj n).word i).toNat
  | .tst n i =>
    let t := s.tst n
    if i = 0 then t.state + t.err * 4 + t.count * 2 ^ 5 + t.gate * 2 ^ 13 + t.out * 2 ^ 21 + t.tag * 2 ^ 32
    else t.rect.toNat + t.fires % 2 ^ 28 * 2 ^ 32
  | .flog i j =>
    match s.iod.faultLog[i]? with
    | none => 0
    | some r => match j with
      | 0 => r.src + r.owner * 2 ^ 16 + r.kind * 2 ^ 32
      | 1 => r.addr
      | 2 => r.time % 2 ^ 64
      | _ => 0
  | .flogh => s.iod.flogIndex + s.iod.flogDropped * 2 ^ 8
  | .duty => s.iod.duty.toNat
  | .dutyHost f => (tget 0 s.iod.dutyHost f).toNat
  | .devid => s.iod.devid.toNat
  | .devt i => (tget 0 s.iod.devt i).toNat
  | .tcal i => (tget 0 s.iod.tcal i).toNat
  | .mr i => (tget 0 s.iod.mr i).toNat
  | .ckpt => (s.iod.ckptStatus == 1).toNat + s.iod.ckptStatus * 2 + s.iod.ckptArgs.toNat
  | .portst p => let x := s.iod.port p; x.state + x.retry * 4 + x.trains * 2 ^ 10
  | .account i => (tget 0 s.iod.accounts i).toNat
  | .ccrom => s.iod.romOff.toNat
  | .mem k => (s.byte k).toNat

/-! Effects of reads and writes. -/

/-- PFQV_READ (R140): the first record is popped, and a waiting request enters the queue. -/
def State.pfqPop (s : State) (d : Nat) : State :=
  s.modDie d fun x =>
    let q := x.pfq.drop 1
    match x.pfqWait with
    | [] => { x with pfq := q }
    | w :: rest => if q.length < 256 then { x with pfq := q ++ [w], pfqWait := rest } else { x with pfq := q }

/-- A register's read effect (R388). -/
def State.regRead (s : State) (sock : Nat) : Reg → State
  | .pfqv => s.pfqPop (sock - 1)
  | _ => s

/-- Whether a core lies in the rectangle of a turnstile that is armed, started or closing (R18). -/
def State.armedCore (s : State) (c : Nat) : Bool := s.turnstiles.any fun e => e.2.state != 0 && inRect e.2.rect c

/-- CMAP_DEAD_SET (R16, R18): cores are marked unusable, or refused while armed. The columns are taken in ascending order, so of
several cores that one write refuses CMAPST.CORE names the highest (DESIGN CHOICE, log 69). -/
def State.cmapDead (s : State) (d row : Nat) (mask : Word) : State :=
  (List.range 32).foldl (fun s c =>
    let core := coreId d row c
    if !mask.getLsbD c || s.dead core then s
    else if s.armedCore core then s.modDie d fun x => { x with cmapst := BitVec.ofNat 32 (1 + core * 2) }
    else s.modDie d fun x => { x with marks := tset 0 x.marks row (tget 0 x.marks row ||| (1 : Word) <<< c) }) s

/-- CMAPST_REFUSED_CLEAR (R18). -/
def State.clearRefused (s : State) (d : Nat) : State := s.modDie d fun x => { x with cmapst := x.cmapst &&& ~~~1 }

/-- Starting a control-core slot (R289); nothing starts while no first stage has been verified (R280). -/
def State.startCtl (s : State) (sock n k : Nat) : State :=
  let r : SlotRef := { place := .ctl sock n, k := k }
  if (s.slot r).status = Status.free ∧ s.iod.verified then s.setSlot r (startedSlot sock k) else s

/-- Stopping a control-core slot as in step 1 of R256 (R289): at an instruction boundary, once its accesses and calls are answered; a
reservation it holds is taken away after a free number of steps (R208). Its state is discarded, with what it waits for. -/
def State.stopCtl (s : State) (sock n k : Nat) : State :=
  let r : SlotRef := { place := .ctl sock n, k := k }
  let x := s.slot r
  let held := match x.resv with | some v => v.held && (match x.stage with | .granted _ => false | _ => true) | none => false
  if x.status = Status.free then s
  else if !s.slotHolds r then
    (((s.leaveResv r).abandonRead r).unpinSlot x).setSlot r {}
  else
    let s := if held then (if Config.freeNat s.draws % 2 = 1 then (s.drawn 1).post (.reservationForceRelease r) else s.drawn 1) else s
    s.post (.ccrunStop sock n k)

/-- A write of CCRUN's RUN bits (R289). -/
def State.runWrite (s : State) (sock n v : Nat) : State :=
  (List.range 8).foldl (fun s k =>
    let running := (s.slot { place := .ctl sock n, k := k }).status != Status.free
    if v.testBit k = running then s
    else if running then s.post (.ccrunStop sock n k)
    else s.startCtl sock n k) s

/-- STATUS of BCMD (R124). -/
def bcmdStatus (v : Dword) : Nat := (v.extractLsb' 57 3).toNat
/-- BCMD with a status. -/
def bcmdWith (v : Dword) (st : Nat) : Dword := (v &&& 0x01FFFFFFFFFFFFFF) ||| BitVec.ofNat 64 (st * 2 ^ 57)
/-- Fields of BCMD that software writes. -/
def bcmdMask : Dword := 0x01FFFFFF1FFFFFFF

/-- A write of BCMD (R124): OP ≠ 0 starts a command; ignored while busy. -/
def State.bcmdWrite (s : State) (d : Nat) (v : Dword) : State :=
  let old := (s.die d).bcmd
  if bcmdStatus old = 1 then s else
    let v := v &&& bcmdMask ||| old &&& 0x0E00000000000000
    let set (w : Dword) (s : State) : State := s.modDie d fun x => { x with bcmd := w }
    match (v.extractLsb' 36 3).toNat with
    | 0 => set v s
    | 1 => (set (bcmdWith v 1) s).post (.bcmdAttach d v)
    | 2 => (set (bcmdWith v 1) s).post (.bcmdSetowner d v)
    | 3 => (set (bcmdWith v 1) s).post (.bcmdUnrevoke d v)
    | _ => (set (bcmdWith v 1) s).post (.bcmdRefused d v)

/-- A write of MIGC (R143). GO reads as 1 while the migration runs; until then a write is ignored (DESIGN CHOICE, log 70). -/
def State.migcWrite (s : State) (m : Nat) (v : Dword) (go : Bool) : State :=
  if (s.md m).status = 1 then s else
    let s := s.modMd m fun x => { x with block := v.extractLsb' 6 42 }
    if go then (s.modMd m fun x => { x with status := 1 }).post (.migrationGo m v) else s

/-- A write of CKPT (R285). -/
def State.ckptWrite (s : State) (v : Dword) (go : Bool) : State :=
  if s.iod.ckptStatus = 1 then s else
    let s := s.modIod fun d => { d with ckptArgs := v &&& ~~~7 }
    if go then (s.modIod fun d => { d with ckptStatus := 1, ckptSent := 0 }).post (.checkpointGo v) else s

/-- Extending a measurement register (R280). -/
def extendMr (old v : BitVec 256) : BitVec 256 := Config.sha256 (leBytes 32 old.toNat ++ leBytes 32 v.toNat)

/-- A write of a register: `v` is the whole value with the named bytes merged in, `named` the named bytes alone (R388).
A byte of a descriptor store keeps all its bits, the reserved ones of R126 too, which SETS tests (R2, R129; DESIGN CHOICE, log 91). -/
def State.regWrite (s : State) (sock : Nat) (reg : Reg) (v named : Nat) : State :=
  let d := sock - 1
  let w := BitVec.ofNat 64 v
  match reg with
  | .cmap row => s.cmapDead d row (BitVec.ofNat 32 named)
  | .cmapst => if named.testBit 0 then s.clearRefused d else s
  | .bcmd => s.bcmdWrite d w
  | .portNear => s.modDie d fun x => { x with portNear := w }
  | .portFar => s.modDie d fun x => { x with portFar := w }
  | .oroot i => s.modDie d fun x => { x with oroot := tset 0 x.oroot i (w &&& 0xFFFFFFFF0001FFFF) }
  | .bstat n => if s.dead (n % 2 ^ 13) then s else s.modBank n fun b => { b with ce := w.extractLsb' 56 8 }
  | .router c i =>
    { s with routers := tset {} s.routers c (
        let x : Router := tget {} s.routers c
        match i with
        | 0 => { x with flits := w } | 1 => { x with drove := w } | 2 => { x with stile := w } | _ => { x with stall := w }) }
  | .ccrun n => s.runWrite sock n v
  | .migc => s.migcWrite (sock - 9) w (named.testBit 0)
  | .object n i => s.objectWrite n i w
  | .duty => s.modIod fun x => { x with duty := w &&& 0x7F }
  | .dutyHost f => s.modIod fun x => { x with dutyHost := tset 0 x.dutyHost f (w &&& 0xFFFF) }
  | .devid => s.modIod fun x => { x with devid := w &&& 0xFFFF }
  | .devt i => s.modIod fun x => { x with devt := tset 0 x.devt i (w &&& 0xFFFFFFFF) }
  | .mr i => s.modIod fun x => { x with mr := tset 0 x.mr i (extendMr (tget 0 x.mr i) (BitVec.ofNat 256 v)) }
  | .ckpt => s.ckptWrite w (named.testBit 0)
  | .ccrom => if named.testBit 0 then s.modIod fun x => { x with romOff := true } else s
  | .mem k => s.setByte k (BitVec.ofNat 8 v)
  | _ => s

/-! Accesses (R388). -/

/-- First address of a socket's window (R20). -/
def mmioBase (sock : Nat) : Nat := 0xF00000000000 + sock * 2 ^ 36
/-- Socket of an MMIO address. -/
def mmioSock (pa : Nat) : Nat := (pa - 0xF00000000000) / 2 ^ 36

/-- Reading bytes a .. e - 1, one register at a time. -/
def mmioReadFrom (s : State) : Nat → Nat → Nat → List Byte × State
  | 0, _, _ => ([], s)
  | f + 1, a, e =>
    if e ≤ a then ([], s) else
      let sock := mmioSock a
      let off := a - mmioBase sock
      match regAt sock off with
      | none => let (t, s') := mmioReadFrom s f (a + 1) e; (0 :: t, s')
      | some (reg, lo, size) =>
        let stop := Nat.min e (mmioBase sock + lo + size)
        let bs := ((leBytes size (s.regGet sock reg)).drop (off - lo)).take (stop - a)
        let (t, s') := mmioReadFrom (s.regRead sock reg) f stop e
        (bs ++ t, s')

/-- An MMIO read of n bytes. -/
def State.mmioRead (s : State) (pa n : Nat) : List Byte × State := mmioReadFrom s n pa (pa + n)

/-- Writing the named bytes from a on, one register at a time: a register acts once, and only when one of its bytes is named. -/
def mmioWriteFrom (s : State) : Nat → Nat → List (Option Byte) → State
  | 0, _, _ => s
  | f + 1, a, data =>
    if data = [] then s else
      let sock := mmioSock a
      let off := a - mmioBase sock
      match regAt sock off with
      | none => mmioWriteFrom s f (a + 1) (data.drop 1)
      | some (reg, lo, size) =>
        let mine := data.take (lo + size - off)
        let at_ := off - lo
        let named := List.replicate at_ none ++ mine
        let new := (leBytes size (s.regGet sock reg)).mapIdx fun i b => ((named[i]?).getD none).getD b
        let s := if mine.all Option.isNone then s
          else s.regWrite sock reg (ofLe new) (ofLe (named.map fun b => b.getD 0))
        mmioWriteFrom s f (a + mine.length) (data.drop mine.length)

/-- An MMIO write of the bytes that are named: one access (R388). -/
def State.mmioWriteNamed (s : State) (pa : Nat) (data : List (Option Byte)) : State := mmioWriteFrom s data.length pa data

/-- An MMIO write. -/
def State.mmioWrite (s : State) (pa : Nat) (data : List Byte) : State := s.mmioWriteNamed pa (data.map some)

/-! The events that register accesses are. -/

/-- MMIO_REGISTER_WRITE (R2, R388). -/
def execMmioRegisterWrite (pa : Nat) (data : List Byte) (s : State) : Host.Outcome State Fault Refusal :=
  .next (if isMmio pa then s.mmioWrite pa data else s)

/-- PFQV_READ (R140). -/
def execPfqvRead (die : Nat) (s : State) : Host.Outcome State Fault Refusal := .next (s.pfqPop die)

/-- CMAP_DEAD_SET (R16-R18). -/
def execCmapDeadSet (die row : Nat) (mask : Word) (s : State) : Host.Outcome State Fault Refusal :=
  .next (s.cmapDead die row mask)

/-- CMAPST_REFUSED_CLEAR (R18). -/
def execCmapstRefusedClear (die : Nat) (s : State) : Host.Outcome State Fault Refusal := .next (s.clearRefused die)

/-- CCRUN_START (R289). -/
def execCcrunStart (sock n k : Nat) (s : State) : Host.Outcome State Fault Refusal := .next (s.startCtl sock n k)

/-- CCRUN_STOP (R289). -/
def execCcrunStop (sock n k : Nat) (s : State) : Host.Outcome State Fault Refusal := .next (s.stopCtl sock n k)

/-- CCROM_ROMOFF (R289). -/
def execCcromRomoff (s : State) : Host.Outcome State Fault Refusal := .next (s.modIod fun d => { d with romOff := true })

/-- OBJECT_CREATE (R215). -/
def execObjectCreate (n : Nat) (word0 : Dword) (s : State) : Host.Outcome State Fault Refusal :=
  .next (if (s.obj n).valid then s else s.objectCreate n word0)

/-- OBJECT_DESTROY (R215, R232). -/
def execObjectDestroy (n : Nat) (s : State) : Host.Outcome State Fault Refusal := .next (s.objectDestroy n)

end Sys2Proof.Machine
end

