-- ==== Sys2Proof/Machine/Flags.lean ====
section
/-! DEFINITION. The sticky flags (R162) and the traps they raise (R163, log 22). -/
namespace Sys2Proof.Machine

/-- No flag. -/
def fNone : BitVec 6 := 0
/-- Invalid operation. -/
def fNV : BitVec 6 := 1
/-- Division by zero. -/
def fDZ : BitVec 6 := 2
/-- Overflow. -/
def fOF : BitVec 6 := 4
/-- Underflow. -/
def fUF : BitVec 6 := 8
/-- Inexact. -/
def fNX : BitVec 6 := 16
/-- Saturation. -/
def fSAT : BitVec 6 := 32

/-- Setting sticky flags (R162). -/
def Slot.raise (x : Slot) (f : BitVec 6) : Slot := { x with flags := x.flags ||| f }

/-- The IEEE flags raised whose enable is set in TEN (R163). -/
def Slot.enabled (x : Slot) (f : BitVec 6) : BitVec 6 := f &&& 0x1F &&& x.ten.extractLsb' 0 6 &&& 0x1F

/-- FPX, with the flags that caused it (R163, R260). -/
def fpx (f : BitVec 6) : TrapInfo := { cause := cFPX, flg := f.toNat }

/-- An instruction that raised flags f: FPX when one is enabled, else its effect on the slot with the flags set (R163). -/
def withFlags (s : State) (r : SlotRef) (f : BitVec 6) (eff : Slot → Slot) : Res :=
  let x := s.slot r
  let e := x.enabled f
  if e ≠ 0 then .trapIn (s.setSlot r (x.raise f)) (fpx e)
  else .done (s.setSlot r (eff (x.raise f)))

end Sys2Proof.Machine
end

