-- ==== Sys2Proof/Machine/Operands.lean ====
section
/-! DEFINITION. Operand forms: narrow operands, conditions, address operands, lanes and masks (R42-R44, R48, R49, R301). -/
namespace Sys2Proof.Machine

/-- Width of the w32 and the 64-bit form. -/
def aluBits (w : Bool) : Nat := if w then 32 else 64
/-- The low n bits read as signed (R301). -/
def lowS (w : Bool) (x : Dword) : Int := if w then (x.extractLsb' 0 32).toInt else x.toInt
/-- The low n bits read as unsigned. -/
def lowU (w : Bool) (x : Dword) : Nat := if w then (x.extractLsb' 0 32).toNat else x.toNat
/-- An n-bit result, sign-extended to 64 bits in the w32 form (R301). -/
def wide (w : Bool) (v : Int) : Dword := if w then (BitVec.ofInt 32 v).signExtend 64 else BitVec.ofInt 64 v
/-- A value clamped to the signed n-bit range, and whether the clamp changed it (R306). -/
def clampS (n : Nat) (v : Int) : Int × Bool :=
  let lo : Int := -(2 ^ (n - 1) : Nat)
  let hi : Int := (2 ^ (n - 1) : Nat) - 1
  if v < lo then (lo, true) else if hi < v then (hi, true) else (v, false)

/-- SAT of the pending prefix (R50). -/
def Slot.sat (x : Slot) : Bool := match x.pre with | some p => p.sat | none => false
/-- RLX of the pending prefix. -/
def Slot.rlx (x : Slot) : Bool := match x.pre with | some p => p.rlx | none => false
/-- Rounding modes (R71): 0 RNE, 1 RZ, 2 RU, 3 RD. rm(pre) is RM of the prefix when nonzero, else RND (R63). -/
def Slot.rmode (x : Slot) : Nat :=
  match x.pre with
  | some p => match p.rm with | .dflt => x.rnd.toNat | .rne => 0 | .rz => 1 | .ru => 2 | .rd => 3
  | none => x.rnd.toNat

/-- A comparison of exact values (R49). -/
def condInt (c : Cond) (a b : Int) : Bool :=
  match c with
  | .eq => a == b | .ne => a != b | .lt => a < b | .le => a ≤ b | .gt => a > b | .ge => a ≥ b

/-- Base plus a scaled signed displacement, modulo 2^64 (R42, R43, R130). -/
def addr8 (x : Slot) (a : R4) (disp : Byte) (size : Nat) : Dword := x.getG a + BitVec.ofInt 64 (disp.toInt * size)
/-- Base plus a 32-bit byte displacement (R44). -/
def addr32 (x : Slot) (a : R4) (disp : Word) : Dword := x.getG a + disp.signExtend 64
/-- Base plus a 5-bit displacement of 64-byte units (R43). -/
def addr5 (x : Slot) (a : R4) (disp : BitVec 5) : Dword := x.getG a + BitVec.ofInt 64 (disp.toInt * 64)

/-- Lane width in bits (R48). -/
def VType.width : VType → Nat
  | .i8 => 8 | .i16 | .bf16 | .f16 => 16 | .i32 | .f32 => 32 | .i64 => 64
/-- Number of lanes (R48). -/
def lanesOf (t : VType) : Nat := 512 / VType.width t
/-- Lane i of width w, as a number. -/
def lane (v : Vec) (w i : Nat) : Nat := v.toNat / 2 ^ (w * i) % 2 ^ w
/-- Mask bit of lane i: one bit of m for each byte lane; a lane of w bytes is governed by the bit of its lowest byte. -/
def maskOn (m : Dword) (w i : Nat) : Bool := m.getLsbD (w / 8 * i)
/-- A vector from its lanes, lowest first. -/
def ofLanes (w : Nat) : List Nat → Nat
  | [] => 0
  | x :: t => x % 2 ^ w + 2 ^ w * ofLanes w t
/-- A vector from its lanes. -/
def vecOf (w : Nat) (ls : List Nat) : Vec := BitVec.ofNat 512 (ofLanes w ls)
/-- A lane read as a signed number. -/
def signedOf (w x : Nat) : Int := if 2 * x < 2 ^ w then (x : Int) else (x : Int) - (2 ^ w : Nat)
/-- A number narrowed to w bits. -/
def narrow (w : Nat) (v : Int) : Nat := (v % (2 ^ w : Nat)).toNat

end Sys2Proof.Machine
end

