-- ==== Sys2Proof/Machine/Float.lean ====
section
/-! DEFINITION. Number formats, rounding and conversion (chapter 07: R157-R166, R376). Values are exact: a sign, a natural
significand and a power of two. -/
namespace Sys2Proof.Machine

/-- An exact value: NaN (signalling or not), an infinity, or (-1)^neg x m x 2^e. -/
inductive FVal where
  | nan (signalling : Bool)
  | inf (neg : Bool)
  | fin (neg : Bool) (m : Nat) (e : Int)
  deriving DecidableEq, Repr

/-- A floating-point format (R158): widths, exponent of its smallest subnormal, largest finite code, infinity (if any),
the NaN written, and whether NaNs may signal. -/
structure FFmt where
  width : Nat
  frac : Nat
  emin : Int
  maxCode : Nat
  hasInf : Bool
  nanCode : Nat
  signals : Bool
  deriving DecidableEq, Repr

/-- f16. -/
def ffF16 : FFmt := { width := 16, frac := 10, emin := -24, maxCode := 0x7BFF, hasInf := true, nanCode := 0x7E00, signals := true }
/-- bf16. -/
def ffBf16 : FFmt := { width := 16, frac := 7, emin := -133, maxCode := 0x7F7F, hasInf := true, nanCode := 0x7FC0, signals := true }
/-- f32. -/
def ffF32 : FFmt :=
  { width := 32, frac := 23, emin := -149, maxCode := 0x7F7FFFFF, hasInf := true, nanCode := 0x7FC00000, signals := true }
/-- e4m3. -/
def ffE4m3 : FFmt := { width := 8, frac := 3, emin := -9, maxCode := 0x7E, hasInf := false, nanCode := 0x7F, signals := false }
/-- e5m2. -/
def ffE5m2 : FFmt := { width := 8, frac := 2, emin := -16, maxCode := 0x7B, hasInf := true, nanCode := 0x7F, signals := false }
/-- f48. -/
def ffF48 : FFmt :=
  { width := 48, frac := 38, emin := -292, maxCode := 0x7FBFFFFFFFFF, hasInf := true, nanCode := 0x7FE000000000, signals := true }

/-- Sign bit of a format, as a weight. -/
def FFmt.signBit (f : FFmt) : Nat := 2 ^ (f.width - 1)

/-- The value of a code (R158). -/
def FFmt.value (f : FFmt) (c : Nat) : FVal :=
  let c := c % 2 ^ f.width
  let neg := f.signBit ≤ c
  let a := c % f.signBit
  let frac := a % 2 ^ f.frac
  if f.maxCode < a then
    if f.hasInf && frac == 0 then .inf neg
    else .nan (f.signals && frac < 2 ^ (f.frac - 1))
  else if a < 2 ^ f.frac then .fin neg a f.emin
  else .fin neg (2 ^ f.frac + frac) (f.emin + ((a / 2 ^ f.frac : Nat) : Int) - 1)

/-- A code with a sign. -/
def FFmt.signed (f : FFmt) (neg : Bool) (a : Nat) : Nat := if neg then f.signBit + a else a

/-- Whether to round the magnitude up, by mode (R164): 0 RNE, 1 RZ, 2 RU, 3 RD. `rest` against `half` with a sticky part. -/
def roundUp (mode : Nat) (neg odd : Bool) (rest half : Nat) (sticky : Bool) : Bool :=
  let inexact := rest != 0 || sticky
  match mode with
  | 0 => half < rest || (rest == half && (sticky || odd))
  | 1 => false
  | 2 => inexact && !neg
  | _ => inexact && neg

/-- Rounding the magnitude (m + s) 2^e, where 0 < s < 1 exactly when sticky, onto multiples of 2^q: the multiple, and
whether it is inexact. A sticky value must have q > e. -/
def roundAt (mode : Nat) (neg : Bool) (m : Nat) (e : Int) (sticky : Bool) (q : Int) : Nat × Bool :=
  if q ≤ e then (m * 2 ^ (e - q).toNat, sticky)
  else
    let sh := (q - e).toNat
    let k := m / 2 ^ sh
    let rest := m % 2 ^ sh
    let up := roundUp mode neg (k % 2 == 1) rest (2 ^ (sh - 1)) sticky
    (if up then k + 1 else k, rest != 0 || sticky)

/-- Exponent of the unit in the last place that a magnitude rounds to, without a lower bound. -/
def ulpExp (f : FFmt) (m : Nat) (e : Int) : Int := (m.log2 : Int) + e - f.frac

/-- Rounding a magnitude into a format: the code (which exceeds maxCode on overflow), inexact, and tiny after rounding
(R161, R165). -/
def roundMag (f : FFmt) (mode : Nat) (neg : Bool) (m : Nat) (e : Int) (sticky : Bool) : Nat × Bool × Bool :=
  if m = 0 then (0, sticky, sticky)
  else
    let u := ulpExp f m e
    let q := if u < f.emin then f.emin else u
    let (k, inexact) := roundAt mode neg m e sticky q
    let (k', _) := roundAt mode neg m e sticky u
    let tiny := decide (u < f.emin) && !(k' == 2 ^ (f.frac + 1) && u + 1 == f.emin)
    ((q - f.emin).toNat * 2 ^ f.frac + k, inexact, tiny)

/-- Infinity of a format that has one. -/
def FFmt.infCode (f : FFmt) : Nat := f.maxCode + 1

/-- Rounding an arithmetic result (R161): overflow by mode with OF and NX, underflow when tiny and inexact. -/
def roundArith (f : FFmt) (mode : Nat) (neg : Bool) (m : Nat) (e : Int) (sticky : Bool) : Nat × BitVec 6 :=
  let (c, inexact, tiny) := roundMag f mode neg m e sticky
  if f.maxCode < c then
    let toInf := mode == 0 || (mode == 2 && !neg) || (mode == 3 && neg)
    (f.signed neg (if toInf then f.infCode else f.maxCode), fOF ||| fNX)
  else (f.signed neg c, (if inexact then fNX else 0) ||| (if inexact && tiny then fUF else 0))

/-- A result in a format: its code and flags. -/
abbrev FRes := Nat × BitVec 6

/-- An exact value as a result. -/
def FFmt.put (f : FFmt) (mode : Nat) (v : FVal) : FRes :=
  match v with
  | .nan _ => (f.nanCode, 0)
  | .inf neg => (f.signed neg f.infCode, 0)
  | .fin neg m e => if m = 0 then (f.signed neg 0, 0) else roundArith f mode neg m e false

/-- Whether a value is a signalling NaN. -/
def FVal.sig : FVal → Bool
  | .nan b => b
  | _ => false
/-- Whether a value is a NaN. -/
def FVal.isNan : FVal → Bool
  | .nan _ => true
  | _ => false
/-- Negation. -/
def FVal.neg : FVal → FVal
  | .nan b => .nan b
  | .inf n => .inf (!n)
  | .fin n m e => .fin (!n) m e

/-- The exact signed significand at an exponent not above the value's. -/
def sigAt (neg : Bool) (m : Nat) (e at_ : Int) : Int :=
  let k : Int := (m * 2 ^ (e - at_).toNat : Nat)
  if neg then -k else k

/-- Exact sum; an exact zero sum of opposite signs is +0, or -0 under RD (R161). Flags: NV. -/
def addVal (mode : Nat) (a b : FVal) : FVal × BitVec 6 :=
  match a, b with
  | .nan s, y => (.nan false, if s || y.sig then fNV else 0)
  | x, .nan s => (.nan false, if s || x.sig then fNV else 0)
  | .inf n, .inf n' => if n == n' then (.inf n, 0) else (.nan false, fNV)
  | .inf n, _ => (.inf n, 0)
  | _, .inf n => (.inf n, 0)
  | .fin n m e, .fin n' m' e' =>
    let q := if e < e' then e else e'
    let v := sigAt n m e q + sigAt n' m' e' q
    if v = 0 then (.fin (if m = 0 ∧ m' = 0 ∧ n == n' then n else mode == 3) 0 q, 0)
    else (.fin (decide (v < 0)) v.natAbs q, 0)

/-- Exact product. -/
def mulVal (a b : FVal) : FVal × BitVec 6 :=
  match a, b with
  | .nan s, y => (.nan false, if s || y.sig then fNV else 0)
  | x, .nan s => (.nan false, if s || x.sig then fNV else 0)
  | .inf n, .inf n' => (.inf (n != n'), 0)
  | .inf n, .fin n' m _ => if m = 0 then (.nan false, fNV) else (.inf (n != n'), 0)
  | .fin n m _, .inf n' => if m = 0 then (.nan false, fNV) else (.inf (n != n'), 0)
  | .fin n m e, .fin n' m' e' => (.fin (n != n') (m * m') (e + e'), 0)

/-- Addition (R161). -/
def fAdd (f : FFmt) (mode : Nat) (a b : FVal) : FRes :=
  let (v, g) := addVal mode a b
  let (c, h) := f.put mode v
  (c, g ||| h)
/-- Multiplication. -/
def fMul (f : FFmt) (mode : Nat) (a b : FVal) : FRes :=
  let (v, g) := mulVal a b
  let (c, h) := f.put mode v
  (c, g ||| h)
/-- Fused multiply-add a b + d, one rounding; 0 x inf raises NV whatever the addend (R161). -/
def fFma (f : FFmt) (mode : Nat) (a b d : FVal) : FRes :=
  let (p, g) := mulVal a b
  let (v, g') := addVal mode p d
  let (c, h) := f.put mode v
  (c, g ||| g' ||| h)

/-- Division (R161). -/
def fDiv (f : FFmt) (mode : Nat) (a b : FVal) : FRes :=
  match a, b with
  | .nan s, y => (f.nanCode, if s || y.sig then fNV else 0)
  | x, .nan s => (f.nanCode, if s || x.sig then fNV else 0)
  | .inf _, .inf _ => (f.nanCode, fNV)
  | .inf n, .fin n' _ _ => (f.signed (n != n') f.infCode, 0)
  | .fin n _ _, .inf n' => (f.signed (n != n') 0, 0)
  | .fin n m e, .fin n' m' e' =>
    if m' = 0 then
      if m = 0 then (f.nanCode, fNV) else (f.signed (n != n') f.infCode, fDZ)
    else if m = 0 then (f.signed (n != n') 0, 0)
    else
      let k := f.frac + 4 + m'.log2
      let num := m * 2 ^ k
      roundArith f mode (n != n') (num / m') (e - e' - k) (num % m' != 0)

/-- Largest r with r r ≤ n, bit by bit from bit k - 1 down. -/
def isqrtFrom (n : Nat) : Nat → Nat → Nat
  | 0, r => r
  | k + 1, r => isqrtFrom n k (if (r + 2 ^ k) * (r + 2 ^ k) ≤ n then r + 2 ^ k else r)
/-- Integer square root. -/
def isqrt (n : Nat) : Nat := isqrtFrom n (n.log2 / 2 + 1) 0

/-- A significand and even exponent of the same value with at least 2k bits. -/
def evenUp (m : Nat) (e : Int) (k : Nat) : Nat × Int :=
  let e' := e - 2 * k
  if e' % 2 = 0 then (m * 2 ^ (2 * k), e') else (m * 2 ^ (2 * k + 1), e' - 1)

/-- Square root (R161, R324). -/
def fSqrt (f : FFmt) (mode : Nat) (a : FVal) : FRes :=
  match a with
  | .nan s => (f.nanCode, if s then fNV else 0)
  | .inf n => if n then (f.nanCode, fNV) else (f.infCode, 0)
  | .fin n m e =>
    if m = 0 then (f.signed n 0, 0)
    else if n then (f.nanCode, fNV)
    else
      let (m', e') := evenUp m e (f.frac + 4)
      let r := isqrt m'
      roundArith f mode false r (e' / 2) (r * r != m')

/-- Reciprocal (R161, R376). -/
def fRcp (f : FFmt) (mode : Nat) (a : FVal) : FRes :=
  match a with
  | .nan s => (f.nanCode, if s then fNV else 0)
  | a => fDiv f mode (.fin false 1 0) a

/-- Reciprocal square root (R161, R376): ±0 gives a correctly signed infinity with DZ. -/
def fRsq (f : FFmt) (mode : Nat) (a : FVal) : FRes :=
  match a with
  | .nan s => (f.nanCode, if s then fNV else 0)
  | .inf n => if n then (f.nanCode, fNV) else (0, 0)
  | .fin n m e =>
    if m = 0 then (f.signed n f.infCode, fDZ)
    else if n then (f.nanCode, fNV)
    else
      let (m', e') := if e % 2 = 0 then (m, e) else (m * 2, e - 1)
      let k := f.frac + 4 + m'.log2
      let r := isqrt (2 ^ (2 * k) / m')
      roundArith f mode false r (-(e' / 2) - k) (r * r * m' != 2 ^ (2 * k))

/-! 2^x (R376, log 18), by bounds: the result is decided when both bounds of 2^x round alike. -/

/-- Fraction bits of the bounds. -/
def exp2Bits : Nat := 192

/-- A lower bound of ln 2 x 2^exp2Bits: the sum of 1 / (k 2^k); the true value exceeds it by less than 256. -/
def ln2Sum : Nat → Nat → Nat
  | 0, _ => 0
  | n + 1, k => 2 ^ exp2Bits / (k * 2 ^ k) + ln2Sum n (k + 1)
/-- The bound. -/
def ln2Lo : Nat := ln2Sum 200 1

/-- A lower bound of the exponential series of t (scaled), from term k on. -/
def expSum (t : Nat) : Nat → Nat → Nat → Nat
  | 0, _, _ => 0
  | n + 1, k, term => term + expSum t n (k + 1) (term * t / 2 ^ exp2Bits / (k + 1))

/-- A lower bound of 2^(f / 2^exp2Bits) x 2^exp2Bits for 0 ≤ f < 2^exp2Bits; the true value, also of any f' < f + 1,
exceeds it by less than 2^16. -/
def exp2Lo (f : Nat) : Nat := expSum (f * ln2Lo / 2 ^ exp2Bits) 60 0 (2 ^ exp2Bits)

/-- 2^x rounded once (R376): NaN, infinities, integers exactly; otherwise by the two bounds. The third component says the
bounds disagree, and the code is then free (log 18). -/
def fExp2 (f : FFmt) (mode : Nat) (a : FVal) : Nat × BitVec 6 × Bool :=
  match a with
  | .nan s => (f.nanCode, if s then fNV else 0, false)
  | .inf n => (if n then 0 else f.infCode, 0, false)
  | .fin neg m e =>
    let big := m != 0 && decide (((m.log2 : Int) + e) > 12)
    if big then
      let (c, g) := roundArith f mode false 1 (if neg then -5000 else 5000) false
      (c, g, false)
    else
      let sc : Nat := m * 2 ^ (e + exp2Bits).toNat / 2 ^ (-(e + exp2Bits)).toNat
      let exact := sc * 2 ^ (-(e + exp2Bits)).toNat == m * 2 ^ (e + exp2Bits).toNat
      let one := 2 ^ exp2Bits
      if exact && sc % one == 0 then
        let n : Int := (sc / one : Nat)
        let (c, g) := roundArith f mode false 1 (if neg then -n else n) false
        (c, g, false)
      else
        let whole : Int := if neg then -((sc / one : Nat) : Int) - 1 else ((sc / one : Nat) : Int)
        let fr := if neg then one - sc % one - (if exact then 0 else 1) else sc % one
        let lo := exp2Lo fr
        let hi := Nat.min (lo + 2 ^ 16) (2 * one - 1)
        let r1 := roundArith f mode false lo (whole - exp2Bits) true
        let r2 := roundArith f mode false hi (whole - exp2Bits) true
        (r1.1, r1.2, r1 != r2)

/-! Comparison, minimum and maximum (R161, R326). -/

/-- Exact comparison of finite or infinite values: -1, 0 or 1; zeros are equal. -/
def cmpVal (a b : FVal) : Int :=
  match a, b with
  | .inf n, .inf n' => if n == n' then 0 else if n then -1 else 1
  | .inf n, _ => if n then -1 else 1
  | _, .inf n => if n then 1 else -1
  | .fin n m e, .fin n' m' e' =>
    let q := if e < e' then e else e'
    let x := sigAt n m e q
    let y := sigAt n' m' e' q
    if x < y then -1 else if y < x then 1 else 0
  | _, _ => 0

/-- FCMP (R326): the answer and NV. -/
def fCmp (c : Cond) (a b : FVal) : Bool × BitVec 6 :=
  if a.isNan || b.isNan then
    let quietOk := c == .eq || c == .ne
    (c == .ne, if a.sig || b.sig || !quietOk then fNV else 0)
  else (condInt c (cmpVal a b) 0, 0)

/-- Sign of a value. -/
def FVal.isNeg : FVal → Bool
  | .inf n | .fin n _ _ => n
  | _ => false

/-- FMIN and FMAX (R161): -0 is less than +0; one NaN yields the other operand; NV only for a signalling NaN. The codes
are returned unchanged. -/
def fMinMax (f : FFmt) (max : Bool) (a b : Nat) : FRes :=
  let x := f.value a
  let y := f.value b
  let g : BitVec 6 := if x.sig || y.sig then fNV else 0
  if x.isNan && y.isNan then (f.nanCode, g)
  else if x.isNan then (b % 2 ^ f.width, g)
  else if y.isNan then (a % 2 ^ f.width, g)
  else
    let c := cmpVal x y
    let less := c < 0 || (c == 0 && x.isNeg && !y.isNeg)
    ((if less != max then a else b) % 2 ^ f.width, g)

/-- FCLASS (R325). -/
def fClass (f : FFmt) (c : Nat) : Nat :=
  match f.value c with
  | .nan s => if s then 2 ^ 8 else 2 ^ 9
  | .inf n => if n then 1 else 2 ^ 7
  | .fin n m e =>
    let sub := e == f.emin && m < 2 ^ f.frac
    if m = 0 then (if n then 2 ^ 3 else 2 ^ 4)
    else if sub then (if n then 2 ^ 2 else 2 ^ 5)
    else (if n then 2 ^ 1 else 2 ^ 6)

/-! Conversion (R157, R165, R166). -/

/-- The floating-point format of an FMT4 code, if it is one. -/
def Fmt.float? : Fmt → Option FFmt
  | .f16 => some ffF16 | .bf16 => some ffBf16 | .f32 => some ffF32 | .e4m3 => some ffE4m3 | .e5m2 => some ffE5m2
  | .f48 => some ffF48 | _ => none

/-- Width in bits, and signedness, of an integer format. -/
def Fmt.int? : Fmt → Option (Nat × Bool)
  | .i8 => some (8, true) | .i16 => some (16, true) | .i32 => some (32, true) | .i64 => some (64, true)
  | .n8 => some (8, false) | .n16 => some (16, false) | .n32 => some (32, false) | .n64 => some (64, false) | _ => none

/-- Element size in bytes (R156); px8 has none and counts one. -/
def Fmt.bytes : Fmt → Nat
  | .i8 | .n8 | .e4m3 | .e5m2 | .e8m0 | .px8 => 1
  | .i16 | .n16 | .f16 | .bf16 => 2
  | .i32 | .n32 | .f32 => 4
  | .i64 | .n64 | .f48 => 8

/-- Value of an integer. -/
def intVal (v : Int) : FVal := .fin (decide (v < 0)) v.natAbs 0

/-- Value of an e8m0 code (R159). -/
def e8m0Val (c : Nat) : FVal := if c % 256 = 0xFF then .nan false else .fin false 1 ((c % 256 : Nat) - 127)

/-- The value that bits hold in a format (R157-R160). -/
def valueIn (f : Fmt) (x : Nat) : FVal :=
  match Fmt.float? f, Fmt.int? f with
  | some ff, _ => ff.value x
  | none, some (w, sg) => intVal (if sg then signedOf w (x % 2 ^ w) else ((x % 2 ^ w : Nat) : Int))
  | none, none => e8m0Val x

/-- Whether every finite value of a source format is a value of the target (R165). -/
def contains (t src : FFmt) : Bool :=
  src.frac ≤ t.frac && t.emin ≤ src.emin &&
  cmpVal (src.value src.maxCode) (t.value t.maxCode) ≤ 0

/-- Conversion to a float target (R165). -/
def toFloat (t : FFmt) (src : Fmt) (x : FVal) (mode : Nat) : FRes :=
  match x with
  | .nan s => (t.nanCode, if s then fNV else 0)
  | .inf n =>
    let narrowing := match Fmt.float? src with
      | some sf => !contains t sf
      | none => true
    if narrowing then (t.signed n t.maxCode, fSAT) else (t.signed n t.infCode, 0)
  | .fin n m e =>
    if m = 0 then (t.signed n 0, 0)
    else
      let (c, inexact, _) := roundMag t mode n m e false
      if t.maxCode < c then (t.signed n t.maxCode, fSAT) else (t.signed n c, if inexact then fNX else 0)

/-- Conversion to an integer target of w bits (R165): the bits. -/
def toInt (w : Nat) (sg : Bool) (x : FVal) (mode : Nat) : FRes :=
  let lo : Int := if sg then -((2 ^ (w - 1) : Nat) : Int) else 0
  let hi : Int := if sg then ((2 ^ (w - 1) : Nat) : Int) - 1 else ((2 ^ w : Nat) : Int) - 1
  match x with
  | .nan s => (0, fSAT ||| (if s then fNV else 0))
  | .inf n => (narrow w (if n then lo else hi), fSAT)
  | .fin n m e =>
    let (k, inexact) := roundAt mode n m e false 0
    let v : Int := if n then -(k : Int) else k
    if v < lo then (narrow w lo, fSAT) else if hi < v then (narrow w hi, fSAT)
    else (narrow w v, if inexact then fNX else 0)

/-- Conversion to e8m0 (R166). -/
def toE8m0 (x : FVal) (mode : Nat) : FRes :=
  match x with
  | .nan s => (0xFF, if s then fNV else 0)
  | .inf _ => (0xFE, fSAT)
  | .fin _ m e =>
    if m = 0 then (0x00, fSAT)
    else
      let fl : Int := (m.log2 : Int) + e
      let low := 2 ^ m.log2
      let exact := m == low
      let up := match mode with
        | 0 => 3 * low < 2 * m || (2 * m == 3 * low && (fl + 127) % 2 == 1)
        | 2 => !exact
        | _ => false
      let k := if up then fl + 1 else fl
      if 127 < k then (0xFE, fSAT) else if k < -127 then (0x00, fSAT)
      else ((k + 127).toNat, if exact then 0 else fNX)

/-- Conversion of a value of format src into a target format other than px8 (R165, R166): its bits and flags. -/
def convert (dst src : Fmt) (x : FVal) (mode : Nat) : FRes :=
  match Fmt.float? dst, Fmt.int? dst with
  | some t, _ => toFloat t src x mode
  | none, some (w, sg) => toInt w sg x mode
  | none, none => toE8m0 x mode

/-- Width of the bits a format is read from and written in. -/
def Fmt.width (f : Fmt) : Nat := if f = .f48 then 48 else 8 * Fmt.bytes f

/-- A scalar result in a g register: signed integers sign-extended, everything else zero-extended (R157, R320). -/
def regOf (f : Fmt) (c : Nat) : Dword :=
  match Fmt.int? f with
  | some (w, true) => BitVec.ofInt 64 (signedOf w c)
  | _ => BitVec.ofNat 64 c

/-- The format of a FOP word (R55). -/
def ftype : FType → FFmt
  | .f32 => ffF32 | .bf16 => ffBf16 | .f16 => ffF16

/-- The format of a float lane type. -/
def vfmt : VType → FFmt
  | .bf16 => ffBf16 | .f16 => ffF16 | _ => ffF32

/-- The FMT4 format of a lane type, signed (R375). -/
def vsrc : VType → Fmt
  | .i8 => .i8 | .i16 => .i16 | .i32 => .i32 | .i64 => .i64 | .bf16 => .bf16 | .f16 => .f16 | .f32 => .f32

/-- The unsigned FMT4 format of an integer lane type. -/
def vsrcN : VType → Fmt
  | .i8 => .n8 | .i16 => .n16 | .i32 => .n32 | .i64 => .n64 | t => vsrc t

end Sys2Proof.Machine
end

