-- ==== Sys2Proof/Machine/Scalar.lean ====
section
/-! DEFINITION. Scalar integer instructions, compares and predicate logic (R54, R301, R306-R309, R314-R316, R322, R323,
R336-R338, R340, R343, R345, R348, R351, R353, R357, R361, R365, R386). -/
namespace Sys2Proof.Machine

/-- Writing one g register. -/
def doneG (s : State) (r : SlotRef) (d : R4) (v : Dword) : Res := .done (s.modSlot r fun x => x.setG d v)

/-- Writing one predicate. -/
def doneQ (s : State) (r : SlotRef) (d : R4) (b : Bool) : Res := .done (s.modSlot r fun x => x.setQ d b)

/-- An exact result written as ADD writes it: wrapped, or clamped under SAT with FLAGS.SAT (R306). -/
def doneSat (s : State) (r : SlotRef) (x : Slot) (w : Bool) (d : R4) (v : Int) : Res :=
  if x.sat then
    let y := clampS (aluBits w) v
    .done (s.modSlot r fun x => (if y.2 then x.raise fSAT else x).setG d (wide w y.1))
  else doneG s r d (wide w v)

/-- Number of zero bits above the highest set bit (R314). -/
def clzNat (n x : Nat) : Nat := if x = 0 then n else n - 1 - x.log2

/-- Number of set bits (R345). -/
def popNat (n x : Nat) : Nat := ((List.range n).filter fun i => x.testBit i).length

/-- A field control word that EXT and INS refuse (R323). -/
def fieldBad (c : Dword) : Bool :=
  c.extractLsb' 6 2 != 0 || c.extractLsb' 14 2 != 0 || c.extractLsb' 17 47 != 0 ||
  (c.extractLsb' 0 6).toNat + (c.extractLsb' 8 6).toNat + 1 > 64

/-- Position of a field (R323). -/
def fieldPos (c : Dword) : Nat := (c.extractLsb' 0 6).toNat
/-- Width of a field (R323). -/
def fieldWidth (c : Dword) : Nat := (c.extractLsb' 8 6).toNat + 1

/-- EXT's result (R323). -/
def extField (a c : Dword) : Dword :=
  let w := fieldWidth c
  let f := a.toNat / 2 ^ fieldPos c % 2 ^ w
  if c.getLsbD 16 then BitVec.ofInt 64 (signedOf w f) else BitVec.ofNat 64 f

/-- INS's result (R323). -/
def insField (d a c : Dword) : Dword :=
  let p := fieldPos c
  let w := fieldWidth c
  BitVec.ofNat 64 (d.toNat - (d.toNat / 2 ^ p % 2 ^ w) * 2 ^ p + (a.toNat % 2 ^ w) * 2 ^ p)

/-- Quotient of DIV, rounded toward zero (R322); the caller has ruled out y = 0. -/
def divInt (u w : Bool) (a b : Dword) : Int :=
  if u then ((lowU w a / lowU w b : Nat) : Int) else (lowS w a).tdiv (lowS w b)

/-- Remainder of REM (R351). -/
def remInt (u w : Bool) (a b : Dword) : Int :=
  if u then ((lowU w a % lowU w b : Nat) : Int) else (lowS w a).tmod (lowS w b)

/-- The operand of a division as an exact number. -/
def divOperand (u w : Bool) (a : Dword) : Int := if u then (lowU w a : Int) else lowS w a

/-- DIV and REM: IDZ when enabled, else the quotient 0 or the dividend (R260, R322, R351). -/
def divide (s : State) (r : SlotRef) (x : Slot) (w : Bool) (d : R4) (zero : Bool) (onZero res : Int) : Res :=
  if zero then
    if x.ten.getLsbD 5 then trapOf cIDZ else doneG s r d (wide w onZero)
  else doneG s r d (wide w res)

/-- High half of the exact product (R340). -/
def mulHigh (u w : Bool) (a b : Dword) : Int :=
  let n := aluBits w
  if u then ((lowU w a * lowU w b / 2 ^ n : Nat) : Int) else lowS w a * lowS w b / (2 ^ n : Nat)

/-- Rotation left by k places (R353). -/
def rotLeft (w : Bool) (a b : Dword) : Dword :=
  if w then ((a.extractLsb' 0 32).rotateLeft (b.extractLsb' 0 5).toNat).signExtend 64
  else a.rotateLeft (b.extractLsb' 0 6).toNat

/-- Shift left by an unmasked count (R361). -/
def shiftLeft (w : Bool) (a b : Dword) : Dword :=
  if b.toNat < aluBits w then wide w (lowU w a * 2 ^ b.toNat : Nat) else 0
/-- Logical shift right. -/
def shiftRight (w : Bool) (a b : Dword) : Dword :=
  if b.toNat < aluBits w then wide w (lowU w a / 2 ^ b.toNat : Nat) else 0
/-- Arithmetic shift right: beyond the width, all copies of the sign. -/
def shiftArith (w : Bool) (a b : Dword) : Dword :=
  wide w (lowS w a / (2 ^ (if b.toNat < aluBits w then b.toNat else aluBits w) : Nat))

/-- The lesser of two n-bit operands, extended (R301, R337). -/
def minOf (u w : Bool) (a b : Dword) : Dword :=
  wide w (if u then ((Nat.min (lowU w a) (lowU w b) : Nat) : Int) else min (lowS w a) (lowS w b))
/-- The greater. -/
def maxOf (u w : Bool) (a b : Dword) : Dword :=
  wide w (if u then ((Nat.max (lowU w a) (lowU w b) : Nat) : Int) else max (lowS w a) (lowS w b))

/-- ADD (R306). -/
def execAdd (q : R4) (w : Bool) (b a d : R4) (s : State) : Host.Outcome State Fault Refusal :=
  issue (.add q w b a d) q s fun r x s => doneSat s r x w d (lowS w (x.getG a) + lowS w (x.getG b))

/-- SUB (R365). -/
def execSub (q : R4) (w : Bool) (b a d : R4) (s : State) : Host.Outcome State Fault Refusal :=
  issue (.sub q w b a d) q s fun r x s => doneSat s r x w d (lowS w (x.getG a) - lowS w (x.getG b))

/-- MUL (R340). -/
def execMul (q : R4) (w : Bool) (b a d : R4) (s : State) : Host.Outcome State Fault Refusal :=
  issue (.mul q w b a d) q s fun r x s => doneSat s r x w d (lowS w (x.getG a) * lowS w (x.getG b))

/-- MULH (R340). -/
def execMulh (q : R4) (u w : Bool) (b a d : R4) (s : State) : Host.Outcome State Fault Refusal :=
  issue (.mulh q u w b a d) q s fun r x s => doneG s r d (wide w (mulHigh u w (x.getG a) (x.getG b)))

/-- DIV (R322). -/
def execDiv (q : R4) (u w : Bool) (b a d : R4) (s : State) : Host.Outcome State Fault Refusal :=
  issue (.div q u w b a d) q s fun r x s => 
    divide s r x w d (divOperand u w (x.getG b) == 0) 0 (divInt u w (x.getG a) (x.getG b))

/-- REM (R351). -/
def execRem (q : R4) (u w : Bool) (b a d : R4) (s : State) : Host.Outcome State Fault Refusal :=
  issue (.rem q u w b a d) q s fun r x s => 
    divide s r x w d (divOperand u w (x.getG b) == 0) (divOperand u w (x.getG a)) (remInt u w (x.getG a) (x.getG b))

/-- AND (R308). -/
def execAnd (q : R4) (b a d : R4) (s : State) : Host.Outcome State Fault Refusal :=
  issue (.and q b a d) q s fun r x s => doneG s r d (x.getG a &&& x.getG b)

/-- OR (R343). -/
def execOr (q : R4) (b a d : R4) (s : State) : Host.Outcome State Fault Refusal :=
  issue (.or q b a d) q s fun r x s => doneG s r d (x.getG a ||| x.getG b)

/-- XOR (R386). -/
def execXor (q : R4) (b a d : R4) (s : State) : Host.Outcome State Fault Refusal :=
  issue (.xor q b a d) q s fun r x s => doneG s r d (x.getG a ^^^ x.getG b)

/-- SHL (R361). -/
def execShl (q : R4) (w : Bool) (b a d : R4) (s : State) : Host.Outcome State Fault Refusal :=
  issue (.shl q w b a d) q s fun r x s => doneG s r d (shiftLeft w (x.getG a) (x.getG b))

/-- SHR (R361). -/
def execShr (q : R4) (w : Bool) (b a d : R4) (s : State) : Host.Outcome State Fault Refusal :=
  issue (.shr q w b a d) q s fun r x s => doneG s r d (shiftRight w (x.getG a) (x.getG b))

/-- SHA (R361). -/
def execSha (q : R4) (w : Bool) (b a d : R4) (s : State) : Host.Outcome State Fault Refusal :=
  issue (.sha q w b a d) q s fun r x s => doneG s r d (shiftArith w (x.getG a) (x.getG b))

/-- ROT (R353). -/
def execRot (q : R4) (w : Bool) (b a d : R4) (s : State) : Host.Outcome State Fault Refusal :=
  issue (.rot q w b a d) q s fun r x s => doneG s r d (rotLeft w (x.getG a) (x.getG b))

/-- MIN (R337). -/
def execMin (q : R4) (u w : Bool) (b a d : R4) (s : State) : Host.Outcome State Fault Refusal :=
  issue (.min q u w b a d) q s fun r x s => doneG s r d (minOf u w (x.getG a) (x.getG b))

/-- MAX (R337). -/
def execMax (q : R4) (u w : Bool) (b a d : R4) (s : State) : Host.Outcome State Fault Refusal :=
  issue (.max q u w b a d) q s fun r x s => doneG s r d (maxOf u w (x.getG a) (x.getG b))

/-- SEL reads the guard as its predicate (R357). -/
def execSel (q : R4) (b a d : R4) (s : State) : Host.Outcome State Fault Refusal :=
  issue (.sel q b a d) q s fun r x s => doneG s r d (if x.getQ q then x.getG a else x.getG b)

/-- CLZ (R314). -/
def execClz (q : R4) (w : Bool) (a d : R4) (s : State) : Host.Outcome State Fault Refusal :=
  issue (.clz q w a d) q s fun r x s => doneG s r d (BitVec.ofNat 64 (clzNat (aluBits w) (lowU w (x.getG a))))

/-- POPC (R345). -/
def execPopc (q : R4) (w : Bool) (a d : R4) (s : State) : Host.Outcome State Fault Refusal :=
  issue (.popc q w a d) q s fun r x s => doneG s r d (BitVec.ofNat 64 (popNat (aluBits w) (lowU w (x.getG a))))

/-- MAD (R336). -/
def execMad (q : R4) (w : Bool) (b a d : R4) (s : State) : Host.Outcome State Fault Refusal :=
  issue (.mad q w b a d) q s fun r x s => 
    doneSat s r x w d (lowS w (x.getG a) * lowS w (x.getG b) + lowS w (x.getG d))

/-- MOV (R338). -/
def execMov (q : R4) (a d : R4) (s : State) : Host.Outcome State Fault Refusal :=
  issue (.mov q a d) q s fun r x s => doneG s r d (x.getG a)

/-- MOVI (R338). -/
def execMovi (q : R4) (imm : BitVec 47) (d : R4) (s : State) : Host.Outcome State Fault Refusal :=
  issue (.movi q imm d) q s fun r _ s => doneG s r d (imm.signExtend 64)

/-- EXT (R323). -/
def execExt (q : R4) (b a d : R4) (s : State) : Host.Outcome State Fault Refusal :=
  issue (.ext q b a d) q s fun r x s => 
    if fieldBad (x.getG b) then trapOf cILL else doneG s r d (extField (x.getG a) (x.getG b))

/-- INS (R323). -/
def execIns (q : R4) (b a d : R4) (s : State) : Host.Outcome State Fault Refusal :=
  issue (.ins q b a d) q s fun r x s => 
    if fieldBad (x.getG b) || (x.getG b).getLsbD 16 then trapOf cILL
    else doneG s r d (insField (x.getG d) (x.getG a) (x.getG b))

/-- ADDI (R307). -/
def execAddi (q : R4) (imm : BitVec 11) (a d : R4) (s : State) : Host.Outcome State Fault Refusal :=
  issue (.addi q imm a d) q s fun r x s => doneSat s r x false d ((x.getG a).toInt + imm.toInt)

/-- ANDI (R309). -/
def execAndi (q : R4) (imm : BitVec 11) (a d : R4) (s : State) : Host.Outcome State Fault Refusal :=
  issue (.andi q imm a d) q s fun r x s => doneG s r d (x.getG a &&& imm.zeroExtend 64)

/-- ORI (R343). -/
def execOri (q : R4) (imm : BitVec 11) (a d : R4) (s : State) : Host.Outcome State Fault Refusal :=
  issue (.ori q imm a d) q s fun r x s => doneG s r d (x.getG a ||| imm.zeroExtend 64)

/-- XORI (R386). -/
def execXori (q : R4) (imm : BitVec 11) (a d : R4) (s : State) : Host.Outcome State Fault Refusal :=
  issue (.xori q imm a d) q s fun r x s => doneG s r d (x.getG a ^^^ imm.zeroExtend 64)

/-- CMPI (R316). -/
def execCmpi (q : R4) (c : Cond) (imm : Byte) (a p : R4) (s : State) : Host.Outcome State Fault Refusal :=
  issue (.cmpi q c imm a p) q s fun r x s => doneQ s r p (condInt c (x.getG a).toInt imm.toInt)

/-- CMP (R315). -/
def execCmp (q : R4) (u : Bool) (c : Cond) (b a p : R4) (s : State) : Host.Outcome State Fault Refusal :=
  issue (.cmp q u c b a p) q s fun r x s => 
    doneQ s r p (condInt c (divOperand u false (x.getG a)) (divOperand u false (x.getG b)))

/-- QAND (R348). -/
def execQand (q : R4) (b a d : R4) (s : State) : Host.Outcome State Fault Refusal :=
  issue (.qand q b a d) q s fun r x s => doneQ s r d (x.getQ a && x.getQ b)

/-- QOR (R348). -/
def execQor (q : R4) (b a d : R4) (s : State) : Host.Outcome State Fault Refusal :=
  issue (.qor q b a d) q s fun r x s => doneQ s r d (x.getQ a || x.getQ b)

/-- QXOR (R348). -/
def execQxor (q : R4) (b a d : R4) (s : State) : Host.Outcome State Fault Refusal :=
  issue (.qxor q b a d) q s fun r x s => doneQ s r d (x.getQ a != x.getQ b)

/-- QNOT (R348). -/
def execQnot (q : R4) (a d : R4) (s : State) : Host.Outcome State Fault Refusal :=
  issue (.qnot q a d) q s fun r x s => doneQ s r d (!x.getQ a)

end Sys2Proof.Machine
end

