-- ==== Sys2Proof/Machine/Shapes.lean ====
section
/-! DEFINITION. Shape records (R147, R154-R156, R172). -/
namespace Sys2Proof.Machine

/-- FMT of a record. -/
def shFmt (r : BitVec 256) : R4 := r.extractLsb' 0 4
/-- The format a code names (R47). -/
def fmtOf (c : R4) : Fmt :=
  match c.toNat with
  | 0 => .i8 | 1 => .i16 | 2 => .i32 | 3 => .i64 | 4 => .n8 | 5 => .n16 | 6 => .n32 | 7 => .n64
  | 8 => .f16 | 9 => .bf16 | 10 => .f32 | 11 => .e4m3 | 12 => .e5m2 | 13 => .e8m0 | 14 => .px8 | _ => .f48
/-- Whether a record is px8. -/
def shPx (r : BitVec 256) : Bool := shFmt r == 14
/-- Element size in bytes (R156). -/
def shElem (r : BitVec 256) : Nat := Fmt.bytes (fmtOf (shFmt r))
/-- Rank. -/
def shRank (r : BitVec 256) : Nat := (r.extractLsb' 4 2).toNat + 1
/-- d0 to d3 as the record holds them. -/
def shDim (r : BitVec 256) (k : Nat) : Nat := (r.extractLsb' (8 + 16 * k) 16).toNat
/-- dk', which is 1 for k not below the rank (R147). -/
def shDim' (r : BitVec 256) (k : Nat) : Nat := if k < shRank r then shDim r k else 1
/-- stride1 to stride3. -/
def shStride (r : BitVec 256) (k : Nat) : Nat := (r.extractLsb' (72 + 32 * (k - 1)) 32).toNat
/-- tile0 and tile1. -/
def shTile (r : BitVec 256) (k : Nat) : Nat := (r.extractLsb' (168 + 16 * k) 16).toNat
/-- log2 of the base alignment. -/
def shAlign (r : BitVec 256) : Nat := (r.extractLsb' 200 8).toNat

/-- The conditions SHLD checks (R156). -/
def shapeOk (r : BitVec 256) : Bool :=
  let n := shRank r
  let e := shElem r
  let d := shDim r
  let d1 := shDim' r 1
  let px := shPx r
  r.extractLsb' 6 2 == 0 && r.extractLsb' 208 48 == 0 &&
  ((List.range 4).all fun k => if k < n then d k != 0 else d k == 0) &&
  ((List.range 3).all fun i => let k := i + 1; k < n || shStride r k == 0) &&
  6 ≤ shAlign r && shAlign r ≤ 16 &&
  shTile r 0 != 0 && shTile r 0 ≤ d 0 && shTile r 1 != 0 && shTile r 1 ≤ d1 &&
  (if px then n ≤ 2 && d 0 % 32 == 0 && shTile r 0 % 32 == 0 && (n != 2 || shStride r 1 != 0)
   else
    (n < 2 || (d 0 * e ≤ shStride r 1 && shStride r 1 % 64 == 0)) &&
    (n < 3 || (d 1 * shStride r 1 ≤ shStride r 2 && shStride r 2 % 64 == 0)) &&
    (n < 4 || (d 2 * shStride r 2 ≤ shStride r 3 && shStride r 3 % 64 == 0)) &&
    shTile r 0 * e % 64 == 0)

/-- Record of a shape slot of a place; none when it is invalid. -/
def State.shape (s : State) (p : Nat) (ts : BitVec 5) : Option (BitVec 256) := tget none (s.site p).ts ts.toNat

/-- The record of a shape slot for an instruction of a slot (R154, R362): one that is under way goes on with the record that it sampled
when it first issued. -/
def State.shapeFor (s : State) (r : SlotRef) (x : Slot) (ts : BitVec 5) : Option (BitVec 256) :=
  let p := placeKey r.place
  if x.since = 0 then s.shape p ts
  else match (s.site p).oldTs.find? fun e => e.1 == ts.toNat && x.since < e.2.1 with
    | some e => e.2.2
    | none => s.shape p ts

/-- Whether a slot of a place is at an instruction that first issued before a time. -/
def State.midIssue (s : State) (p : Place) (time : Nat) : Bool :=
  (List.range 8).any fun k => let x := s.slot { place := p, k := k }; x.since != 0 && x.since < time

/-- A shape slot of a place changes (R154): the old record is kept for the instructions under way. -/
def State.setShape (s : State) (p : Place) (ts : Nat) (new : Option (BitVec 256)) : State :=
  s.modSite (placeKey p) fun y =>
    { y with
      ts := tset none y.ts ts new
      oldTs := (y.oldTs ++ [(ts, s.fresh, tget none y.ts ts)]).filter fun e => s.midIssue p e.2.1 }

/-- Elements of a record other than px8. -/
def shCount (r : BitVec 256) : Nat := shDim' r 0 * shDim' r 1 * shDim' r 2 * shDim' r 3

/-- Offset of element number n, in packed order, from the far base (R147). -/
def shElemOff (r : BitVec 256) (n : Nat) : Nat :=
  let d0 := shDim' r 0
  let d1 := shDim' r 1
  let d2 := shDim' r 2
  n % d0 * shElem r + n / d0 % d1 * shStride r 1 + n / (d0 * d1) % d2 * shStride r 2 + n / (d0 * d1 * d2) * shStride r 3

/-- One past the last byte of a record's far side, from its base. -/
def shExtent (r : BitVec 256) : Nat :=
  if shPx r then 4 * (shDim' r 1 - 1) * shStride r 1 + 4 else shElemOff r (shCount r - 1) + shElem r

end Sys2Proof.Machine
end

