-- ==== Sys2Proof/Machine/Memory.lean ====
section
/-! DEFINITION. Loads and stores: resolving, performing, relaxed accesses and their events (R101, R103, R130, R131, R138,
R219, R220, R234, R237, R238, R264, R333, R364). -/
namespace Sys2Proof.Machine

/-! Places of an instruction's accesses. -/

/-- One single-copy access of an instruction (R236): offset in its segment, size, alignment, place in the operand. -/
structure Want where
  off : Dword
  size : Nat
  al : Nat
  pos : Nat
  deriving DecidableEq, Repr

/-- A run of an access that reads or writes: its place in the operand, its length, where it is, and TADDR of its access; of a
store that is one access of a register or of another device, the bytes it writes (R378, R388). -/
structure Part where
  pos : Nat
  n : Nat
  spot : Spot
  addr : Dword
  mask : Dword := -1
  deriving DecidableEq, Repr

/-- What resolving all accesses of an instruction answers. -/
inductive Places where
  | ok (ps : List Part)
  | trap (cause : Nat) (taddr : Dword)
  | denied (taddr : Dword)
  | park (p : Park)

/-- Resolving the accesses in order: the first that traps or parks decides. -/
def State.places (s : State) (r : SlotRef) (sg : BitVec 3) (acc : Acc) : List Want → Places
  | [] => .ok []
  | w :: t =>
    match s.look r sg w.off w.size acc w.al with
    | .trap c a => .trap c a
    | .denied a => .denied a
    | .park p => .park p
    | .at p =>
      match s.places r sg acc t with
      | .ok ps => .ok ({ pos := w.pos, n := w.size, spot := p, addr := s.faultAddr r sg w.off } :: ps)
      | o => o

/-- A spot k bytes on. -/
def Spot.shift (p : Spot) (k : Nat) : Spot :=
  match p with
  | .run key tag => .run (key + k) tag
  | .mmio pa => .mmio (pa + k)
  | .remote dev va => .remote dev (va + BitVec.ofNat 64 k)
  | .rom off => .rom (off + k)
  | .block a => .block (a + k)

/-- The maximal runs of on bytes of a byte mask, from byte i on. -/
def maskRuns (m : Dword) : Nat → Nat → List (Nat × Nat)
  | 0, _ => []
  | f + 1, i =>
    if m.getLsbD i then
      match maskRuns m f (i + 1) with
      | (a, n) :: t => if a = i + 1 then (i, n + 1) :: t else (i, 1) :: (a, n) :: t
      | [] => [(i, 1)]
    else maskRuns m f (i + 1)

/-- A 64-byte part cut to the on bytes of a mask (R378). Registers and other devices take it as the one access it is. -/
def Part.cut (p : Part) (m : Dword) : List Part :=
  match p.spot with
  | .mmio _ | .remote .. => if m = 0 then [] else [{ p with mask := m }]
  | _ => (maskRuns m 64 0).map fun e => { pos := p.pos + e.1, n := e.2, spot := p.spot.shift e.1, addr := p.addr }
/-- The bytes a part writes, with none for those its mask leaves out. -/
def Part.named (p : Part) (data : List Byte) : List (Option Byte) :=
  ((data.drop p.pos).take p.n).mapIdx fun i b => if 64 ≤ i || p.mask.getLsbD i then some b else none

/-- Whether a part is remote. -/
def Part.remote (p : Part) : Bool := match p.spot with | .remote .. => true | _ => false
/-- A part as a piece of memory, when it is one. -/
def Part.piece (p : Part) : Option Piece :=
  match p.spot with
  | .run key tag => some { pos := p.pos, key := key, n := p.n, tag := tag }
  | _ => none
/-- The pieces of a list of parts. -/
def piecesOf (ps : List Part) : List Piece := ps.filterMap Part.piece
/-- Bytes of memory that an MMIO window shows (R286, R288), as pieces of one byte. -/
def windowPieces (pa n : Nat) : List Piece :=
  (List.range n).filterMap fun i => match regAt (mmioSock (pa + i)) (pa + i - mmioBase (mmioSock (pa + i))) with
    | some (.mem k, _, _) => some { pos := i, key := k, n := 1, tag := 0 }
    | _ => none
/-- The bytes of memory that a part reads or writes, also by way of an MMIO window. -/
def Part.touches (p : Part) : List Piece :=
  match p.spot with
  | .mmio pa => windowPieces pa p.n
  | _ => p.piece.toList
/-- The bytes of memory that a list of parts reads or writes. -/
def touchesOf (ps : List Part) : List Piece := ps.flatMap Part.touches

/-- Whether two pieces share a byte. -/
def Piece.meets (a b : Piece) : Bool := a.n != 0 && b.n != 0 && a.key < b.key + b.n && b.key < a.key + a.n
/-- Whether two lists of pieces share a byte. -/
def piecesMeet (as bs : List Piece) : Bool := as.any fun a => bs.any a.meets

/-- Whether an earlier relaxed access of the slot to these bytes has still to be performed (R238). -/
def Slot.unperformed (x : Slot) (ps : List Piece) : Bool := x.relaxed.any fun a => !a.arrived && piecesMeet a.pieces ps
/-- Whether stores to these bytes stand in a die's egress queue (R234). -/
def State.queuedStores (s : State) (die : Option Nat) (ps : List Piece) : Bool :=
  match die with
  | none => false
  | some d => (s.die d).egress.any fun e => piecesMeet e.pieces ps
/-- Whether a fabric request of the slot to these bytes is outstanding (R238). -/
def State.awayMeets (s : State) (r : SlotRef) (va : Dword) (n : Nat) : Bool :=
  s.iod.requests.any fun q => q.slot == r && q.addr.toNat < va.toNat + n && va.toNat < q.addr.toNat + q.n
/-- The first remote part that meets an outstanding request of the slot (R238). -/
def State.meetsAway (s : State) (r : SlotRef) (ps : List Part) : Option Part :=
  ps.find? fun p => p.remote && s.awayMeets r p.addr p.n

/-! Counting (R138, R282). -/

/-- Lines of DRAM that runs touch. -/
def linesOf (ps : List Piece) : List Nat :=
  (ps.filter fun p => isDram p.key && p.n != 0).foldl (fun ls p =>
    (poisonUnits p.key p.n).foldl (fun ls k => if ls.contains k then ls else ls ++ [k]) ls) []

/-- A request of a die's port for each line: near and far counters, and the account's bytes read or written. -/
def State.countLines (s : State) (die : Option Nat) (acct : Nat) (port write : Bool) (lines : List Nat) : State :=
  lines.foldl (fun s k =>
    let s := s.charge acct (if write then 3 else 2) 64
    match die with
    | some d =>
      if !port then s
      else if k / 2 ^ 38 = d then s.modDie d fun x => { x with portNear := x.portNear + 1 }
      else s.modDie d fun x => { x with portFar := x.portFar + 1 }
    | none => s) s

/-- The router of the bank or memory die that holds a byte; none for the memory of a place itself. -/
def keyNode (k : Nat) : Option Nat :=
  if isDram k then some (memNode (k / 2 ^ 38))
  else if bankKey 0 0 ≤ k ∧ k < storeKey 0 0 then some (bankSite ((k - bankKey 0 0) / 2 ^ 16))
  else none

/-- The packets of an access that is performed in one step: a request for each piece, and its reply (R271, log 16). -/
def State.traffic (s : State) (node cls : Nat) (ps : List Piece) (write : Bool) : State :=
  ps.foldl (fun s p => match keyNode p.key with
    | none => s
    | some n => s.exchange node n cls (if write then p.n else 0) (if write then 0 else p.n)) s

/-- An access of a slot to pieces is counted: its requests at the port and for the account, and its packets of a class. -/
def State.accessed (s : State) (r : SlotRef) (cls : Nat) (port write : Bool) (ps : List Piece) : State :=
  (s.countLines (dieOf r.place) (s.acctOf r) port write (linesOf ps)).traffic (nodeOf r.place) cls ps write

/-- The router at which a socket's registers are reached (R20). -/
def windowNode (sock : Nat) : Nat := if 1 ≤ sock ∧ sock ≤ 8 then gate (sock - 1) else socketNode sock

/-- The packets of a slot's access to a register (R272, log 16). -/
def State.mmioTraffic (s : State) (r : SlotRef) (pa request reply : Nat) : State :=
  s.exchange (nodeOf r.place) (windowNode (mmioSock pa)) 0 request reply

/-- The router a part's packets go to; none where it needs none. -/
def Part.home (p : Part) : Option Nat :=
  match p.spot with
  | .run k _ => keyNode k
  | .mmio pa => some (windowNode (mmioSock pa))
  | _ => none

/-- The part of an unmarked access whose packets the interposer loses, and whether its reply is what is lost (R265, log 40). -/
def lostPart (r : SlotRef) (x : Slot) (ps : List Part) : Option (Part × Bool) :=
  match x.stage with
  | .lost reply => (ps.find? fun p => match p.home with
    | some n => overInterposer (nodeOf r.place) n
    | none => false).map fun p => (p, reply)
  | _ => none

/-! Performing. -/

/-- A byte queued in an egress queue, from the youngest store to it (R234). -/
def queuedByte (es : List Egress) (k : Nat) : Option Byte :=
  es.foldl (fun found e =>
    match e.pieces.find? fun p => p.key ≤ k && k < p.key + p.n with
    | some p => e.data[p.pos + (k - p.key)]?
    | none => found) none

/-- Bytes of a piece as a die sees them: forwarded from its egress queue where they are queued (R234). -/
def State.readOn (s : State) (die : Option Nat) (p : Piece) : List Byte :=
  let bs := s.readPiece p
  match die with
  | none => bs
  | some d =>
    let es := (s.die d).egress
    if es.isEmpty then bs
    else bs.mapIdx fun i b => (queuedByte es (p.key + i)).getD b

/-- Units of pieces that a die sees poisoned: a store in its egress queue that covers a unit hides the mark (R122, R144, R234). -/
def State.poisonSeen (s : State) (die : Option Nat) (ps : List Piece) : List Nat :=
  let queued := match die with | some d => (s.die d).egress | none => []
  if s.poison = [] then [] else (unitsOf ps).filter fun j => s.poisoned j && !queued.any fun e => unitCovered e.pieces j

/-- A byte of a method's state block: its own buffered store, or the committed byte (R220). -/
def State.blockByte (s : State) (d : Nat) (m : Method) (a : Nat) : Byte :=
  match m.wbuf.find? fun c => c.1 == a with
  | some c => c.2
  | none => s.byte (s.blockKey d m.obj a)

/-- Reading a part. -/
def State.readPart (s : State) (r : SlotRef) (p : Part) : List Byte × State :=
  match p.spot with
  | .run key tag =>
    let pc : Piece := { pos := p.pos, key := key, n := p.n, tag := tag }
    (s.readOn (dieOf r.place) pc, s.drawPieces [pc])
  | .mmio pa => (s.mmioTraffic r pa 0 p.n).mmioRead pa p.n
  | .rom off => ((List.range p.n).map fun i => Config.bootRom ((off + i) % 2 ^ 16), s)
  | .block a =>
    match (s.slot r).method, dieOf r.place with
    | some m, some d => ((List.range p.n).map fun i => s.blockByte d m (a + i), s.blockRead d m.obj a p.n)
    | _, _ => (List.replicate p.n 0, s)
  | .remote .. => (List.replicate p.n 0, s)

/-- Reading parts in order: each with its place in the operand. -/
def State.readParts (s : State) (r : SlotRef) : List Part → List (Nat × List Byte) × State
  | [] => ([], s)
  | p :: t =>
    let (bs, s1) := s.readPart r p
    let (rest, s2) := s1.readParts r t
    ((p.pos, bs) :: rest, s2)

/-- An operand of n bytes from the bytes read at places. -/
def assemble (n : Nat) (parts : List (Nat × List Byte)) : List Byte :=
  (List.range n).map fun i =>
    (parts.findSome? fun e => if e.1 ≤ i then e.2[i - e.1]? else none).getD 0

/-- A loaded operand enters its register (R333, R378). -/
def loadInto (x : Slot) (dest : LoadDest) (bs : List Byte) : Slot :=
  match dest with
  | .g d n signed =>
    let v := ofLe (bs.take n)
    x.setG d (if signed then BitVec.ofInt 64 (signedOf (8 * n) v) else BitVec.ofNat 64 v)
  | .v d base mask =>
    x.setV d (vecOf 8 ((List.range 64).map fun i => if mask.getLsbD i then ((bs[i]?).getD 0).toNat else lane base 8 i))
  | _ => x

/-- Bytes of an operand that a destination takes. -/
def LoadDest.size : LoadDest → Nat
  | .g _ n _ => n
  | .v .. => 64
  | .shape _ => 32
  | .none => 0

/-- Whether a destination is a vector register. -/
def LoadDest.isVector : LoadDest → Bool
  | .v .. => true
  | _ => false

/-- A loaded operand lands: in its register, or in its shape slot, which SHLD checks (R156). -/
def State.land (s : State) (r : SlotRef) (dest : LoadDest) (bs : List Byte) (taddr : Dword) : State ⊕ TrapInfo :=
  match dest with
  | .shape ts =>
    let rec_ := BitVec.ofNat 256 (ofLe (bs.take 32))
    if shapeOk rec_ then .inl (s.setShape r.place ts (some rec_))
    else .inr { cause := cSHAL, taddr := taddr }
  | _ => .inl (s.modSlot r fun x => loadInto x dest bs)

/-- Landing as an instruction's outcome: the access has been made and counted even when what it brought is refused. -/
def landRes (s : State) (l : State ⊕ TrapInfo) : Res :=
  match l with
  | .inl s => .done s
  | .inr t => .trapIn s t

/-- Writing a run of a method's write buffer (R220). -/
def putBuf (w : List Host.Cell) : Nat → List Byte → List Host.Cell
  | _, [] => w
  | a, b :: t => putBuf (tput w a b) (a + 1) t

/-- Distinct lines of a write buffer. -/
def bufLines (w : List Host.Cell) : Nat :=
  (w.foldl (fun ls c => if ls.contains (c.1 / 64) then ls else c.1 / 64 :: ls) ([] : List Nat)).length

/-- Writing a part. -/
def State.writePart (s : State) (r : SlotRef) (data : List Byte) (p : Part) : State :=
  match p.spot with
  | .run key tag =>
    let pc : Piece := { pos := p.pos, key := key, n := p.n, tag := tag }
    s.writePiece pc data
  | .mmio pa => (s.mmioTraffic r pa p.n 0).mmioWriteNamed pa (p.named data)
  | .block a =>
    s.modSlot r fun x => { x with method := x.method.map fun m => { m with wbuf := putBuf m.wbuf a ((data.drop p.pos).take p.n) } }
  | _ => s

/-- Whether a method's write buffer overflows (R220). -/
def State.overflows (s : State) (r : SlotRef) : Bool :=
  match (s.slot r).method with
  | some m => 64 < bufLines m.wbuf
  | none => false

/-! Remote accesses (R264, R275, R276). -/

/-- A list of remote parts leaves as requests of one group; none when no valid entry names the device. `op` is 1 for a
load, 2 for a store. -/
def State.askParts (s : State) (r : SlotRef) (tepc : BitVec 16) (words group op cls : Nat) (what : ReqFor) (data : List Byte) :
    List Part → Option State
  | [] => some s
  | p :: t =>
    match p.spot with
    | .remote dev va =>
      let q : Request :=
        { id := s.fresh, group := group, slot := r, tepc := tepc, words := words, addr := va, pos := p.pos, n := p.n, got := none, what := what }
      match s.bump.ask q dev op cls 0 (s.acctOf r) p.n (if op = 2 then (data.drop p.pos).take p.n else []) p.mask with
      | none => none
      | some s' => s'.askParts r tepc words group op cls what data t
    | _ => s.askParts r tepc words group op cls what data t

/-- Where the request of a relaxed access goes (R234, R271): to its bank or memory die, a DRAM store to the egress queue of its
die. -/
def relaxedNode (r : SlotRef) (a : Relaxed) : Nat :=
  match a.pieces.head? with
  | none => nodeOf r.place
  | some p => match (if a.store && isDram p.key then dieOf r.place else none), keyNode p.key with
    | some d, _ => gate d
    | none, some n => n
    | none, none => nodeOf r.place
/-- Bytes of its pieces. -/
def Relaxed.bytes (a : Relaxed) : Nat := (a.pieces.map Piece.n).foldl (· + ·) 0
/-- Its class on the networks: vector accesses are of class 2 (R271). -/
def Relaxed.cls (a : Relaxed) : Nat := if a.dest.isVector || a.data.length == 64 then 2 else 0

/-- A relaxed access is recorded and its request leaves (R234). -/
def State.launchRelaxed (s : State) (r : SlotRef) (x : Slot) (a : Relaxed) : State :=
  (s.bump.setSlot r { x with relaxed := x.relaxed ++ [{ a with id := s.fresh }] }).route (nodeOf r.place) (relaxedNode r a) a.cls false
    (if a.store then a.bytes else 0) (.accessRequestArrival r s.fresh)

/-- The reply of a relaxed access leaves. -/
def State.replyRelaxed (s : State) (r : SlotRef) (a : Relaxed) : State :=
  s.route (relaxedNode r a) (nodeOf r.place) a.cls false (if a.store then 0 else a.bytes) (.accessReply r a.id)

/-- A relaxed access that faults (R122, R261, R333): it completes, a load with zero, and the fault is kept. -/
def State.relaxedFault (s : State) (r : SlotRef) (tepc : BitVec 16) (cause : Nat) (taddr : Dword) (reason : Nat) (dest : LoadDest) :
    State :=
  let s := s.bump.asyncFault r { id := s.fresh, tepc := tepc, cause := cause, taddr := taddr, reason := reason }
  s.modSlot r fun x => loadInto x dest (List.replicate dest.size 0)

/-- Whether RLX makes an access relaxed; in a method, accesses are to its own state block and complete at once. -/
def relaxedHere (r : SlotRef) (x : Slot) : Bool := x.rlx && !isCarousel r.place

/-- An access that was lost (R265): RWR with REASON 1, precise when unmarked. -/
def State.accessLost (s : State) (r : SlotRef) (x : Slot) (taddr : Dword) (dest : LoadDest) : Res :=
  if relaxedHere r x then .done (s.relaxedFault r x.at cRWR taddr 1 dest) else .trapIn s { cause := cRWR, taddr := taddr, reason := 1 }

/-- Loading an operand (R333, R378): `words` of the instruction, its accesses, its destination, its class on the networks
and whether it counts as a port request. A fault of a relaxed access is reported at its own issue, and its slot parks there (DESIGN
CHOICE, log 93). An access that is performed at once comes after the slot's own to the same bytes (R238, R240). -/
def doLoad (words : Nat) (r : SlotRef) (x : Slot) (s : State) (sg : BitVec 3) (ws : List Want) (dest : LoadDest) (cls : Nat)
    (port : Bool) : Res :=
  let rl := relaxedHere r x
  match x.stage with
  | .failed va => if rl then .done (s.relaxedFault r x.at cSEGV va 0 dest) else trapOf cSEGV va
  | _ =>
    match s.places r sg .load ws with
    | .trap c a => trapOf c a
    | .denied a => if rl then .done (s.relaxedFault r x.at cSEGV a 0 dest) else trapOf cSEGV a
    | .park p => .park s p
    | .ok ps =>
      let pcs := piecesOf ps
      match s.meetsAway r ps, ps.find? Part.remote with
      | some p, _ => .park s (.egress p.addr.toNat p.n)
      | none, some p =>
        if rl then
          if 8 ≤ x.relaxed.length then .park s .relaxedFull
          else
            let id := s.fresh
            let a : Relaxed :=
              { id := id, tepc := x.at, va := p.addr, store := false, dest := dest, pieces := [], data := List.replicate dest.size 0, arrived := true, away := ps.length, port := false }
            let s' := s.bump.setSlot r { x with relaxed := x.relaxed ++ [a] }
            match s'.askParts r x.at words id 1 cls (.relaxedLoad id) [] ps with
            | some s' => .done s'
            | none => .done (s.relaxedFault r x.at cRWR p.addr 2 dest)
        else
          match s.bump.askParts r x.at words s.fresh 1 cls (.load dest) [] ps with
          | some s' => .park s' (.remote s.fresh)
          | none => .trap { cause := cRWR, taddr := p.addr, reason := 2 }
      | none, none =>
        let atOnce := !rl || ps.length != pcs.length
        if atOnce && x.unperformed (touchesOf ps) then .park s (.egress (((touchesOf ps).head?.map Piece.key).getD 0) 64)
        else if !atOnce then
          if 8 ≤ x.relaxed.length then .park s .relaxedFull
          else .done (s.launchRelaxed r x
            { id := 0, tepc := x.at, va := (ps.head?.map Part.addr).getD 0, store := false, dest := dest, pieces := pcs, data := [], arrived := false, away := 0, port := port })
        else match lostPart r x ps with
        | some (p, false) => s.accessLost r x p.addr dest
        | some (p, true) => ((s.readParts r ps).2.accessed r cls port false pcs).accessLost r x p.addr dest
        | none =>
          match ps.find? fun p => match p.piece with | some pc => s.poisonSeen (dieOf r.place) [pc] != [] | none => false with
          | some p => .trapIn (s.accessed r cls port false pcs) { cause := cPOIS, taddr := p.addr }
          | none =>
            let (parts, s') := s.readParts r ps
            let s' := s'.accessed r cls port false pcs
            landRes s' (s'.land r dest (assemble dest.size parts) ((ps.head?.map Part.addr).getD 0))

/-- Whether a part of a store meets poison that the store does not cover: its own part alone where each is a store of its own (R122,
R144, R377). -/
def State.storeBad (s : State) (each : Bool) (ps : List Piece) (p : Piece) : Bool := s.storePoisoned (if each then [p] else ps) p

/-- Storing bytes of an operand (R364, R378): the parts written may be fewer than the bytes checked (a mask). `each` makes every part
a store of its own against poison (R377). -/
def doStore (words : Nat) (r : SlotRef) (x : Slot) (s : State) (sg : BitVec 3) (ws : List Want) (cut : Part → List Part)
    (data : List Byte) (cls : Nat) (port : Bool) (each : Bool := false) : Res :=
  let rl := relaxedHere r x
  match x.stage with
  | .failed va => if rl then .done (s.relaxedFault r x.at cSEGV va 0 .none) else trapOf cSEGV va
  | _ =>
    match s.places r sg .store ws with
    | .trap c a => trapOf c a
    | .denied a => if rl then .done (s.relaxedFault r x.at cSEGV a 0 .none) else trapOf cSEGV a
    | .park p => .park s p
    | .ok whole =>
      let ps := whole.flatMap cut
      let pcs := piecesOf ps
      match s.meetsAway r ps, ps.find? Part.remote with
      | some p, _ => .park s (.egress p.addr.toNat p.n)
      | none, some p =>
        if rl then
          if 8 ≤ x.relaxed.length then .park s .relaxedFull
          else
            let id := s.fresh
            let a : Relaxed :=
              { id := id, tepc := x.at, va := p.addr, store := true, dest := .none, pieces := [], data := [], arrived := true, away := ps.length, port := false }
            let s' := s.bump.setSlot r { x with relaxed := x.relaxed ++ [a] }
            match s'.askParts r x.at words id 2 cls (.relaxedStore id) data ps with
            | some s' => .done s'
            | none => .done (s.relaxedFault r x.at cRWR p.addr 2 .none)
        else
          match s.bump.askParts r x.at words s.fresh 2 cls .store data ps with
          | some s' => .park s' (.remote s.fresh)
          | none => .trap { cause := cRWR, taddr := p.addr, reason := 2 }
      | none, none =>
        if ps = [] then .done s
        else
        let atOnce := !rl || ps.length != pcs.length
        if atOnce && (x.unperformed (touchesOf ps) || s.queuedStores (dieOf r.place) pcs) then
          .park s (.egress (((touchesOf ps).head?.map Piece.key).getD 0) 64)
        else if !atOnce then
          if 8 ≤ x.relaxed.length then .park s .relaxedFull
          else .done (s.launchRelaxed r x
            { id := 0, tepc := x.at, va := (ps.head?.map Part.addr).getD 0, store := true, dest := .none, pieces := pcs, data := data, arrived := false, away := 0, port := port, each := each })
        else
          let bad := ps.find? fun p => match p.piece with | some pc => s.storeBad each pcs pc | none => false
          let written := (ps.foldl (fun s p => s.writePart r data p) s).clearCovered pcs
          match lostPart r x ps, bad with
          | some (p, false), _ => s.accessLost r x p.addr .none
          | some (p, true), none => (written.accessed r cls port true pcs).accessLost r x p.addr .none
          | some (p, true), some _ => (s.accessed r cls port true pcs).accessLost r x p.addr .none
          | none, some p => .trapIn (s.accessed r cls port true pcs) { cause := cPOIS, taddr := p.addr }
          | none, none =>
            let s' := written
            if s'.overflows r then .trap { cause := cSEGV, taddr := (ps.head?.map Part.addr).getD 0, overrun := true }
            else .done (s'.accessed r cls port true pcs)

/-! Events of relaxed accesses. -/

/-- A relaxed access of a slot by its name. -/
def Slot.relaxedBy (x : Slot) (id : Nat) : Option Relaxed := x.relaxed.find? fun a => a.id == id
/-- Changing a relaxed access. -/
def Slot.setRelaxed (x : Slot) (a : Relaxed) : Slot := { x with relaxed := x.relaxed.map fun b => if b.id = a.id then a else b }
/-- Removing a relaxed access. -/
def Slot.dropRelaxed (x : Slot) (id : Nat) : Slot := { x with relaxed := x.relaxed.filter fun a => a.id ≠ id }

/-- Whether an earlier access of the slot to the same bytes has still to be performed (R238). -/
def Slot.behind (x : Slot) (a : Relaxed) : Bool :=
  x.relaxed.any fun b => decide (b.id < a.id) && !b.arrived && piecesMeet b.pieces a.pieces

/-- Whether a relaxed store meets poison as it arrives: poison that neither it nor a store queued on its die before it covers
(R122, R144, R234, R364); of a scatter, each element by itself (R377). -/
def State.relaxedPoisoned (s : State) (die : Option Nat) (each : Bool) (ps : List Piece) : Bool :=
  if each then ps.any fun p => (s.poisonSeen die [p]).any fun j => !unitCovered [p] j
  else (s.poisonSeen die ps).any fun j => !unitCovered ps j

/-- The POIS of a relaxed store that meets poison at its memory die (R122, R261, R364). -/
def State.storeFault (s : State) (r : SlotRef) (id : Nat) : State :=
  match (s.slot r).relaxedBy id with
  | some a => s.asyncFault r { id := a.id, tepc := a.tepc, cause := cPOIS, taddr := a.va, reason := 0 }
  | none => s

/-- The memory dies that pieces of DRAM lie on. -/
def memDies (ps : List Piece) : List Nat :=
  ps.foldl (fun ds p => if ds.contains (p.key / 2 ^ 38) then ds else ds ++ [p.key / 2 ^ 38]) []
/-- Bytes of the pieces on a memory die. -/
def bytesOn (m : Nat) (ps : List Piece) : Nat := ((ps.filter fun p => p.key / 2 ^ 38 == m).map Piece.n).foldl (· + ·) 0

/-- The class of a queued store on the networks (R271). -/
def State.egressCls (s : State) (e : Egress) : Nat := match (s.slot e.slot).relaxedBy e.id with | some a => a.cls | none => 0

/-- A queued store of a slot's die that has left for its memory die, and its die. -/
def State.goneStore (s : State) (r : SlotRef) (id : Nat) : Option (Nat × Egress) :=
  (dieOf r.place).bind fun d => ((s.die d).egress.find? fun e => e.gone && e.slot == r && e.id == id).map fun e => (d, e)

/-- A queued store that arrived, or was lost, is no longer queued, and its access is over (R234). -/
def State.egressOver (s : State) (d : Nat) (e : Egress) : State :=
  (s.modDie d fun y => { y with egress := y.egress.erase e }).modSlot e.slot fun x => x.dropRelaxed e.id

/-- A queued store arrives at its memory die (Wm) and completes (R234, R364); one that covers only part of a line poisoned meanwhile
is not performed. -/
def State.storeArrives (s : State) (d : Nat) (e : Egress) : State :=
  let cls := s.egressCls e
  let s := if e.pieces.any (s.storeBad e.each e.pieces) then s.storeFault e.slot e.id else s.storePieces e.pieces e.data
  let s := s.countLines (some d) e.acct e.port true (linesOf e.pieces)
  ((memDies e.pieces).foldl (fun s m => s.transit (memNode m) (gate d) cls 0) s).egressOver d e

/-- ACCESS_REQUEST_ARRIVAL (R234, R238): a relaxed load or bank store is performed; a DRAM store enters the egress queue
(Wq), or comes from there to its memory die (Wm). -/
def execAccessRequestArrival (r : SlotRef) (id : Nat) (s : State) : Host.Outcome State Fault Refusal :=
  let x := s.slot r
  match s.goneStore r id with
  | some (d, e) => .next (s.storeArrives d e)
  | none =>
  match x.relaxedBy id with
  | none => .next s
  | some a =>
    if a.arrived then .next s
    else if x.behind a then .next (s.post (.accessRequestArrival r id))
    else
      let die := dieOf r.place
      let fault (s : State) : State :=
        (s.countLines die (s.acctOf r) a.port a.store (linesOf a.pieces)).asyncFault r
          { id := a.id, tepc := a.tepc, cause := cPOIS, taddr := a.va, reason := 0 }
      if !a.store then
        if s.poisonSeen die a.pieces ≠ [] then
          .next (((fault s).modSlot r fun x => x.setRelaxed { a with arrived := true, data := List.replicate a.dest.size 0 }).replyRelaxed r a)
        else
          let data := assemble a.dest.size (a.pieces.map fun p => (p.pos, s.readOn die p))
          let s := (s.drawPieces a.pieces).countLines die (s.acctOf r) a.port false (linesOf a.pieces)
          .next ((s.modSlot r fun x => x.setRelaxed { a with arrived := true, data := data }).replyRelaxed r a)
      else if s.relaxedPoisoned die a.each a.pieces then
        .next (((fault s).modSlot r fun x => x.setRelaxed { a with arrived := true }).replyRelaxed r a)
      else if a.pieces.any fun p => isDram p.key then
        match die with
        | none =>
          let s := (s.storePieces a.pieces a.data).countLines die (s.acctOf r) a.port true (linesOf a.pieces)
          .next ((s.modSlot r fun x => x.setRelaxed { a with arrived := true }).replyRelaxed r a)
        | some d =>
          let e : Egress := { slot := r, id := id, acct := s.acctOf r, port := a.port, pieces := a.pieces, data := a.data, each := a.each }
          let s := s.modDie d fun y => { y with egress := y.egress ++ [e] }
          let n := Config.freeNat s.draws % (s.die d).egress.length
          .next ((((s.drawn 1).modSlot r fun x => x.setRelaxed { a with arrived := true })).post (.egressQueueDrain d n))
      else
        .next (((s.storePieces a.pieces a.data).modSlot r fun x => x.setRelaxed { a with arrived := true }).replyRelaxed r a)

/-- ACCESS_REPLY (R237): the load writes its register, the store is complete. -/
def execAccessReply (r : SlotRef) (id : Nat) (s : State) : Host.Outcome State Fault Refusal :=
  let x := s.slot r
  match x.relaxedBy id with
  | none => .next s
  | some a =>
    if !a.arrived || a.away != 0 then .next s
    else .next (s.setSlot r ((if a.store then x else loadInto x a.dest a.data).dropRelaxed id))

/-- Whether entry i of an egress queue may leave: it has not left yet, and no earlier store to its bytes stands in the queue (R234). -/
def mayLeave (es : List Egress) (i : Nat) : Bool :=
  match es[i]? with
  | some e => !e.gone && !(es.take i).any fun f => piecesMeet f.pieces e.pieces
  | none => false

/-- The entry of an egress queue that leaves when entry n is chosen: that one, else the first that may (R234). -/
def drainPick (es : List Egress) (n : Nat) : Option Nat :=
  if mayLeave es n then some n else (List.range es.length).find? (mayLeave es)

/-- A queued store leaves for its memory die, its event with the bytes for the first die it goes to (R234, R265). -/
def State.storeLeaves (s : State) (d i : Nat) (e : Egress) : State :=
  let cls := s.egressCls e
  let s := s.modDie d fun y => { y with egress := y.egress.set i { e with gone := true } }
  match memDies e.pieces with
  | [] => s.post (.accessRequestArrival e.slot e.id)
  | m :: ms =>
    (ms.foldl (fun s m => s.transit (gate d) (memNode m) cls (bytesOn m e.pieces)) s).route (gate d) (memNode m) cls false (bytesOn m e.pieces)
      (.accessRequestArrival e.slot e.id)

/-- EGRESS_QUEUE_DRAIN (R234): a queued store leaves; it stands in the queue, seen by its die, until it arrives at its memory die
(DESIGN CHOICE, log 94). While none may leave, the drain waits. -/
def execEgressQueueDrain (die n : Nat) (s : State) : Host.Outcome State Fault Refusal :=
  let es := (s.die die).egress
  match drainPick es n with
  | none => .next (if es.all Egress.gone then s else s.post (.egressQueueDrain die n))
  | some i => .next (match es[i]? with
    | some e => s.storeLeaves die i e
    | none => s)

end Sys2Proof.Machine
end

