-- ==== Sys2Proof/Machine/Atomics.lean ====
section
/-! DEFINITION. Reservations and atomics (R207-R211, R302-R305, R335, R355). -/
namespace Sys2Proof.Machine

/-- Waiters a reservation queue holds beside the holder (R207). -/
def resvRoom : Nat := 64

/-- The reservation queue of a word. -/
def State.resvQueue (s : State) (key : Nat) : List SlotRef := tget [] s.resv key
/-- Writing a reservation queue. -/
def State.setResvQueue (s : State) (key : Nat) (q : List SlotRef) : State := { s with resv := tset [] s.resv key q }

/-- The scope a release has at a word (R239): die for a bank word, package for a DRAM word. -/
def wordScope (key : Nat) : Nat := if isDram key then 1 else 0

/-- The 64-bit word of a piece. -/
def wordKey (key : Nat) : Nat := key / 8 * 8

/-- A slot stands in the reservation queue of a word. -/
def State.awaitWord (s : State) (r : SlotRef) (p : Piece) (held atomic : Bool) : State :=
  let key := wordKey p.key
  let s := s.setResvQueue key (s.resvQueue key ++ [r])
  s.modSlot r fun x => { x with resv := some { key := key, held := held, atomic := atomic, piece := p } }

/-- The bytes that a grant was made on, for a slot that goes on with it (R207, R303): the window or the page may have changed
meanwhile. -/
def Slot.grantedPiece (x : Slot) : Option Piece :=
  match x.stage, x.resv with
  | .granted _, some v => some v.piece
  | _, _ => none

/-- A word access is counted (R138, R271): it reaches DRAM even when it then takes POIS. -/
def State.countWord (s : State) (r : SlotRef) (p : Piece) (writes : Bool) : State := s.accessed r 0 true writes [p]

/-- What a word access of LRW, SCH, RREL or an atomic resolves to: the piece, the remote place, or what stops it. Places
that are no bank word and no DRAM word are refused (log 28). -/
inductive WordAt where
  | piece (p : Piece)
  | remote (dev : Nat) (va : Dword)
  | block (a : Nat)
  | trap (cause : Nat) (taddr : Dword)
  | park (p : Park)

/-- Resolving the word. -/
def State.wordAt (s : State) (r : SlotRef) (x : Slot) (sg : BitVec 3) (off : Dword) (n : Nat) : WordAt :=
  match x.stage with
  | .failed va => .trap cSEGV va
  | _ =>
    match s.look r sg off n .atomic n with
    | .trap c a => .trap c a
    | .denied a => .trap cSEGV a
    | .park p => .park p
    | .at (.run key tag) => .piece { pos := 0, key := key, n := n, tag := tag }
    | .at (.remote dev va) => .remote dev va
    | .at (.block a) => .block a
    | .at _ => .trap cSEGV (s.faultAddr r sg off)

/-- What an atomic does to a word of n bytes: the new word, what gd receives, and q15 where it is written. -/
abbrev AtomFn := Nat → Nat × Dword × Option Bool

/-- Registers after an atomic. -/
def atomRegs (x : Slot) (d : R4) (v : Dword) (q : Option Bool) : Slot :=
  let x := x.setG d v
  match q with
  | some b => x.setQ 15 b
  | none => x

/-- The read and the write of an atomic at its word, with the hand-on of its reservation (R209, R302). -/
def atomRun (r : SlotRef) (s : State) (p : Piece) (taddr : Dword) (d : R4) (f : AtomFn) : Res :=
  if s.piecePoisoned p then .trapIn ((s.leaveResv r).countWord r p false) { cause := cPOIS, taddr := taddr }
  else
    let old := ofLe (s.readPiece p)
    let (new, v, q) := f old
    let s := (s.drawPieces [p]).writePiece p (leBytes p.n new)
    let s := s.leaveResv r
    let s := s.countWord r p true
    let s := s.countLines none (s.acctOf r) true false (linesOf [p])
    .done (s.modSlot r fun x => atomRegs x d v q)

/-- An atomic whose packets the interposer loses (R265): RAI at the next synchronisation point, and registers as they were. It was
applied when its reply is what is lost. -/
def atomLost (r : SlotRef) (x : Slot) (s : State) (p : Piece) (taddr : Dword) (f : AtomFn) (reply : Bool) : Res :=
  let s' := if reply && !s.piecePoisoned p then
      (((s.drawPieces [p]).writePiece p (leBytes p.n (f (ofLe (s.readPiece p))).1)).countWord r p true).countLines none (s.acctOf r) true false (linesOf [p])
    else s
  .done (s'.bump.asyncFault r { id := s'.fresh, tepc := x.at, cause := cRAI, taddr := taddr, reason := 0 })

/-- An atomic (R209, R210, R302, R304): `sub` is its kind on the fabric and `pay` its payload. -/
def atomic (words : Nat) (r : SlotRef) (x : Slot) (s : State) (sg : BitVec 3) (off : Dword) (n : Nat) (d : R4) (sub : Nat)
    (pay : List Byte) (cas : Bool) (f : AtomFn) : Res :=
  let taddr := s.faultAddr r sg off
  match x.grantedPiece with
  | some p => if s.queuedStores (dieOf r.place) [p] then .park s (.egress p.key n) else atomRun r s p taddr d f
  | none =>
  match s.wordAt r x sg off n with
  | .trap c a => trapOf c a
  | w =>
    if x.resv.isSome then trapOf cILL
    else match w with
      | .trap c a => trapOf c a
      | .park p => .park s p
      | .block a =>
        match x.method, dieOf r.place with
        | some m, some die =>
          let old := ofLe ((List.range n).map fun i => s.blockByte die m (a + i))
          let (new, v, q) := f old
          let s' := (s.blockRead die m.obj a n).writePart r (leBytes n new) { pos := 0, n := n, spot := .block a, addr := taddr }
          if s'.overflows r then .trap { cause := cSEGV, taddr := taddr, overrun := true }
          else .done (s'.modSlot r fun x => atomRegs x d v q)
        | _, _ => trapOf cSEGV taddr
      | .remote dev va =>
        if s.awayMeets r va n then .park s (.egress va.toNat n) else
        let q : Request :=
          { id := s.fresh, group := s.fresh, slot := r, tepc := x.at, words := words, addr := va, pos := 0, n := n, got := none, what := .atomic d cas n }
        match s.bump.ask q dev 3 0 sub (s.acctOf r) pay.length pay with
        | some s' => .park s' (.remote s.fresh)
        | none => .trap { cause := cRWR, taddr := va, reason := 2 }
      | .piece p =>
        if !x.drained (wordScope p.key) then .park s (.drainRelaxed (wordScope p.key))
        else if s.queuedStores (dieOf r.place) [p] then .park s (.egress p.key n)
        else
          let key := wordKey p.key
          let q := s.resvQueue key
          if q = [] then match lostPart r x [{ pos := 0, n := n, spot := .run p.key p.tag, addr := taddr }] with
            | some (_, reply) => atomLost r x s p taddr f reply
            | none => atomRun r s p taddr d f
          else if resvRoom < q.length then .park s (.lrwRoom key)
          else .park (s.awaitWord r p false true) (.reservation key)

/-- f(old, v) of an atomic that writes its old word to gd (R302). -/
def plainAtom (f : Dword → Dword) : AtomFn := fun old =>
  let o := BitVec.ofNat 64 old
  ((f o).toNat, o, none)

/-- ACAS (R210). -/
def casAtom (n : Nat) (expected new : Dword) : AtomFn := fun old =>
  let w := 8 * n
  let ok := old == expected.toNat % 2 ^ w
  (if ok then new.toNat % 2 ^ w else old, BitVec.ofInt 64 (signedOf w old), some ok)

/-- LRW (R207, R208, R335). -/
def execLrw (q : R4) (disp : Byte) (sg : BitVec 3) (a d : R4) (s : State) : Host.Outcome State Fault Refusal :=
  issue (.lrw q disp sg a d) q s fun r x s =>
    let off := addr8 x a disp 8
    let taddr := s.faultAddr r sg off
    match x.grantedPiece, x.stage with
    | some p, .granted v =>
      let s := s.countWord r p false
      if s.piecePoisoned p then .trapIn (s.leaveResv r) { cause := cPOIS, taddr := taddr } else doneG s r d v
    | _, _ =>
      match s.wordAt r x sg off 8 with
      | .trap c a => trapOf c a
      | .remote _ va => trapOf cSEGV va
      | .block _ => trapOf cPRIV
      | w =>
        if x.resv.isSome then trapOf cILL
        else match w with
          | .park p => .park s p
          | .piece p =>
            if s.queuedStores (dieOf r.place) [p] then .park s (.egress p.key 8)
            else
              let key := wordKey p.key
              let qu := s.resvQueue key
              if resvRoom < qu.length then .park s (.lrwRoom key)
              else if qu ≠ [] then .park (s.awaitWord r p false false) (.reservation key)
              else if s.piecePoisoned p then .trapIn (s.countWord r p false) { cause := cPOIS, taddr := taddr }
              else
                let v := BitVec.ofNat 64 (ofLe (s.readPiece p))
                doneG (((s.drawPieces [p]).countWord r p false).awaitWord r p true false) r d v
          | _ => trapOf cSEGV taddr

/-- The word that SCH and RREL name, for a slot that holds it (R355): what to do when it does, and when it does not. -/
def heldWord (r : SlotRef) (x : Slot) (s : State) (sg : BitVec 3) (off : Dword) (held : State → Piece → Res) (none_ : State → Res) :
    Res :=
  match s.wordAt r x sg off 8 with
  | .trap c a => trapOf c a
  | .remote _ va => trapOf cSEGV va
  | .block _ => trapOf cPRIV
  | .park p => .park s p
  | .piece p =>
    match x.resv with
    | none => none_ s
    | some v =>
      if v.key ≠ wordKey p.key then trapOf cILL
      else if !v.held then .park s (.reservation v.key)
      else if !x.drained (wordScope p.key) then .park s (.drainRelaxed (wordScope p.key))
      else held s p

/-- SCH (R207, R355). -/
def execSch (q : R4) (disp : Byte) (sg : BitVec 3) (a d : R4) (s : State) : Host.Outcome State Fault Refusal :=
  issue (.sch q disp sg a d) q s fun r x s =>
    heldWord r x s sg (addr8 x a disp 8)
      (fun s p =>
        if s.queuedStores (dieOf r.place) [p] then .park s (.egress p.key 8)
        else
          let s := (s.writePiece p (leBytes 8 (x.getG d).toNat)).clearPoison p
          let s := (s.leaveResv r).countWord r p true
          doneQ s r 15 true)
      (fun s => doneQ s r 15 false)

/-- RREL (R207, R355). -/
def execRrel (q : R4) (disp : Byte) (sg : BitVec 3) (a : R4) (s : State) : Host.Outcome State Fault Refusal :=
  issue (.rrel q disp sg a) q s fun r x s =>
    heldWord r x s sg (addr8 x a disp 8) (fun s _ => .done (s.leaveResv r)) (fun s => .done s)

/-- AADD, wrapping addition (R209, R302). -/
def execAadd (q : R4) (disp : Byte) (sg : BitVec 3) (a d : R4) (s : State) : Host.Outcome State Fault Refusal :=
  issue (.aadd q disp sg a d) q s fun r x s =>
    let v := x.getG d
    atomic 1 r x s sg (addr8 x a disp 8) 8 d 0 (leBytes 8 v.toNat) false (plainAtom fun o => o + v)

/-- AAND, and (R209, R302). -/
def execAand (q : R4) (disp : Byte) (sg : BitVec 3) (a d : R4) (s : State) : Host.Outcome State Fault Refusal :=
  issue (.aand q disp sg a d) q s fun r x s =>
    let v := x.getG d
    atomic 1 r x s sg (addr8 x a disp 8) 8 d 1 (leBytes 8 v.toNat) false (plainAtom fun o => o &&& v)

/-- AOR, or (R209, R302). -/
def execAor (q : R4) (disp : Byte) (sg : BitVec 3) (a d : R4) (s : State) : Host.Outcome State Fault Refusal :=
  issue (.aor q disp sg a d) q s fun r x s =>
    let v := x.getG d
    atomic 1 r x s sg (addr8 x a disp 8) 8 d 2 (leBytes 8 v.toNat) false (plainAtom fun o => o ||| v)

/-- AXOR, xor (R209, R302). -/
def execAxor (q : R4) (disp : Byte) (sg : BitVec 3) (a d : R4) (s : State) : Host.Outcome State Fault Refusal :=
  issue (.axor q disp sg a d) q s fun r x s =>
    let v := x.getG d
    atomic 1 r x s sg (addr8 x a disp 8) 8 d 3 (leBytes 8 v.toNat) false (plainAtom fun o => o ^^^ v)

/-- AMIN, signed minimum (R209, R302). -/
def execAmin (q : R4) (disp : Byte) (sg : BitVec 3) (a d : R4) (s : State) : Host.Outcome State Fault Refusal :=
  issue (.amin q disp sg a d) q s fun r x s =>
    let v := x.getG d
    atomic 1 r x s sg (addr8 x a disp 8) 8 d 4 (leBytes 8 v.toNat) false (plainAtom fun o => if v.toInt < o.toInt then v else o)

/-- AMAX, signed maximum (R209, R302). -/
def execAmax (q : R4) (disp : Byte) (sg : BitVec 3) (a d : R4) (s : State) : Host.Outcome State Fault Refusal :=
  issue (.amax q disp sg a d) q s fun r x s =>
    let v := x.getG d
    atomic 1 r x s sg (addr8 x a disp 8) 8 d 5 (leBytes 8 v.toNat) false (plainAtom fun o => if o.toInt < v.toInt then v else o)

/-- AXCH, exchange (R209, R302). -/
def execAxch (q : R4) (disp : Byte) (sg : BitVec 3) (a d : R4) (s : State) : Host.Outcome State Fault Refusal :=
  issue (.axch q disp sg a d) q s fun r x s =>
    let v := x.getG d
    atomic 1 r x s sg (addr8 x a disp 8) 8 d 6 (leBytes 8 v.toNat) false (plainAtom fun _ => v)

/-- ACAS (R210, R305). -/
def execAcas (q : R4) (wide : Bool) (disp : Word) (sg : BitVec 3) (b a d : R4) (s : State) : Host.Outcome State Fault Refusal :=
  issue (.acas q wide disp sg b a d) q s fun r x s =>
    let n := if wide then 8 else 4
    let low (v : Dword) : List Byte := leBytes 8 (v.toNat % 2 ^ (8 * n))
    atomic 2 r x s sg (addr32 x a disp) n d (if wide then 8 else 7) (low (x.getG d) ++ low (x.getG b)) true
      (casAtom n (x.getG d) (x.getG b))

/-! Events. -/

/-- RESERVATION_GRANT (R207, R209, R241): the word passes to the slot at the head of its queue, once no store to it stands in
the egress queue of that slot's die. -/
def execReservationGrant (key : Nat) (s : State) : Host.Outcome State Fault Refusal :=
  match s.resvQueue key with
  | [] => .next s
  | r :: _ =>
    let x := s.slot r
    match x.resv with
    | some v =>
      if v.held then .next s
      else if s.queuedStores (dieOf r.place) [v.piece] then .next (s.post (.reservationGrant key))
      else
        let word := BitVec.ofNat 64 (ofLe (s.readPiece v.piece))
        .next ((s.drawPieces [v.piece]).setSlot r { x with resv := some { v with held := true }, stage := .granted word, status := .ready })
    | none => .next s

/-- RESERVATION_FORCE_RELEASE (R208): pre-emption takes a held reservation away. -/
def execReservationForceRelease (r : SlotRef) (s : State) : Host.Outcome State Fault Refusal :=
  match (s.slot r).resv with
  | some v => .next (if v.held then s.leaveResv r else s)
  | none => .next s

end Sys2Proof.Machine
end

