-- ==== Sys2Proof/Machine/Quant.lean ====
section
/-! DEFINITION. Block scaling and the px8 code (R167-R171, R173-R178). -/
namespace Sys2Proof.Machine

/-- Larger of two magnitudes m 2^e. -/
def maxMag (a b : Nat × Int) : Nat × Int :=
  if cmpVal (.fin false a.1 a.2) (.fin false b.1 b.2) < 0 then b else a

/-- Scale code of the block scale rule for fmax = 7 x 2^k (R173). -/
def scaleCode (k : Int) (vs : List FVal) : Nat :=
  if vs.any FVal.isNan then 0xFF
  else if vs.any (fun v => match v with | .inf _ => true | _ => false) then 0xFE
  else
    let a := vs.foldl (fun a v => match v with | .fin _ m e => maxMag a (m, e) | _ => a) (0, 0)
    if a.1 = 0 then 0x00
    else
      let l := a.1.log2
      let low : Nat := 2 ^ l
      let e : Int := (l : Int) + a.2 - (k + 2) + (if 4 * a.1 ≤ 7 * low then 0 else 1)
      (if e < -127 then 0 else if 127 < e then 254 else e + 127).toNat

/-- Exponent k with fmax = 7 x 2^k of a quantisation target (R173). -/
def fmaxExp (f : Fmt) : Int := if f = .e5m2 then 13 else 6

/-- The 32 elements of va (R174): its lanes, or with f32 those of va and va + 1. -/
def blockElems (x : Slot) (t : VType) (a : R4) : List FVal :=
  let w := VType.width t
  (List.range 32).map fun i =>
    (vfmt t).value (if w = 32 then (if i < 16 then lane (x.getV a) 32 i else lane (x.getV (a + 1)) 32 (i - 16))
      else lane (x.getV a) w i)

/-- An odd va with f32 (R174). -/
def oddPair (t : VType) (a : R4) : Bool := t == .f32 && a.toNat % 2 == 1

/-- Byte i of a vector. -/
def vbyte (v : Vec) (i : Nat) : Nat := lane v 8 i
/-- Writing bytes 0.. of a vector, keeping the others. -/
def putVBytes (v : Vec) (bs : List Nat) : Vec :=
  vecOf 8 (bs ++ (List.range (64 - bs.length)).map fun i => vbyte v (bs.length + i))

/-- QSCL (R175): the scale code into byte 32 of vd. -/
def execQscl (q : R4) (t : VType) (f : Fmt) (a d : R4) (s : State) : Host.Outcome State Fault Refusal :=
  issue (.qscl q t f a d) q s fun r x s =>
    if oddPair t a then trapOf cILL
    else
      let old := x.getV d
      let c := scaleCode (fmaxExp f) (blockElems x t a)
      .done (s.modSlot r fun x => x.setV d (putVBytes old ((List.range 32).map (vbyte old) ++ [c])))

/-- A value times a power of two, exactly. -/
def FVal.scale (v : FVal) (k : Int) : FVal :=
  match v with
  | .fin n m e => .fin n m (e + k)
  | v => v

/-- QCVT (R176): the elements divided by the block's scale into bytes 0-31. -/
def execQcvt (q : R4) (t : VType) (f : Fmt) (a d : R4) (s : State) : Host.Outcome State Fault Refusal :=
  issue (.qcvt q t f a d) q s fun r x s =>
    if oddPair t a then trapOf cILL
    else
      let old := x.getV d
      let c := vbyte old 32
      let ys : List FRes := if c = 0xFF then List.replicate 32 (0x7F, 0)
        else (blockElems x t a).map fun v => convert f (vsrc t) (v.scale (127 - (c : Int))) x.rmode
      withFlags s r (ys.foldl (fun g y => g ||| y.2) 0) fun x => x.setV d (putVBytes old (ys.map fun y => y.1))

/-! The px8 code. -/

/-- The low n bits of a number, most significant first. -/
def bitsOf : Nat → Nat → List Bool
  | 0, _ => []
  | n + 1, x => x.testBit n :: bitsOf n x
/-- A number from bits, most significant first. -/
def ofBits (bs : List Bool) : Nat := bs.foldl (fun n b => 2 * n + b.toNat) 0

/-- The token of an element (R169). -/
def pxToken (k b c : Nat) : List Bool :=
  let a := c % 128
  if a = 0 then List.replicate (16 >>> k) true ++ [false]
  else if a = 0x7F then List.replicate ((16 >>> k) + 1) true ++ [false]
  else
    let d := b - a / 8
    List.replicate (d >>> k) true ++ [false] ++ bitsOf k d ++ [decide (128 ≤ c)] ++ bitsOf 3 (a % 8)

/-- Token string of a block for a code parameter. -/
def pxString (k b : Nat) (xs : List Nat) : List Bool := xs.flatMap (pxToken k b)

/-- LEN of a token string (R168). -/
def pxLen (bits : Nat) : Nat := 2 + (bits + 15) / 16

/-- Reference exponent (R171). -/
def pxRef (xs : List Nat) : Nat :=
  xs.foldl (fun b c => let a := c % 128; if a = 0 ∨ a = 0x7F then b else Nat.max b (a / 8)) 0

/-- Code parameter: the smallest LEN, the smaller k on a tie (R171). -/
def pxParam (b : Nat) (xs : List Nat) : Nat :=
  let len (k : Nat) := pxLen (pxString k b xs).length
  [1, 2, 3].foldl (fun best k => if len k < len best then k else best) 0

/-- The bytes of a token string (R168): units of 16 bits from bit 15 down, little-endian. -/
def pxUnits : Nat → List Bool → List Nat
  | 0, _ => []
  | n + 1, bs =>
    let u := ofBits (bs.take 16 ++ List.replicate (16 - (bs.take 16).length) false)
    u % 256 :: u / 256 :: pxUnits n (bs.drop 16)

/-- Encoding a block (R171). -/
def pxEncode (xs : List Nat) (scale : Nat) : List Nat :=
  let b := pxRef xs
  let k := pxParam b xs
  let bits := pxString k b xs
  let len := pxLen bits.length
  let h := len * 2 ^ 12 + b * 2 ^ 18 + k * 2 ^ 22 + scale * 2 ^ 24
  [h % 256, h / 256 % 256, h / 65536 % 256, h / 16777216 % 256] ++ pxUnits (len - 2) bits

/-- Leading one-bits and what follows the zero bit after them; none when the string ends first. -/
def leadOnes : List Bool → Option (Nat × List Bool)
  | [] => none
  | false :: t => some (0, t)
  | true :: t => match leadOnes t with
    | some (n, u) => some (n + 1, u)
    | none => none

/-- One token (R170): the element and the rest; none when the block is bad. -/
def pxElem (k b : Nat) (bs : List Bool) : Option (Nat × List Bool) :=
  match leadOnes bs with
  | none => none
  | some (q, rest) =>
    if q = 16 >>> k then some (0x00, rest)
    else if q = (16 >>> k) + 1 then some (0x7F, rest)
    else if (16 >>> k) + 1 < q then none
    else if rest.length < k + 4 then none
    else
      let d := q * 2 ^ k + ofBits (rest.take k)
      let s := ofBits ((rest.drop k).take 1)
      let m := ofBits ((rest.drop (k + 1)).take 3)
      if b < d then none else some (s * 128 + (b - d) * 8 + m, rest.drop (k + 4))

/-- Tokens of n elements. -/
def pxElems (k b : Nat) : Nat → List Bool → Option (List Nat × List Bool)
  | 0, bs => some ([], bs)
  | n + 1, bs =>
    match pxElem k b bs with
    | none => none
    | some (x, rest) => match pxElems k b n rest with
      | none => none
      | some (xs, u) => some (x :: xs, u)

/-- Token string of n units of bytes. -/
def pxBits : Nat → List Nat → List Bool
  | n + 1, lo :: hi :: t => bitsOf 16 (lo + 256 * hi) ++ pxBits n t
  | _, _ => []

/-- Decoding a block (R170): elements and scale; none when it is malformed. -/
def pxDecode (bytes : List Nat) : Option (List Nat × Nat) :=
  let byte (i : Nat) := (bytes[i]?).getD 0
  let h := byte 0 + 256 * byte 1 + 65536 * byte 2 + 16777216 * byte 3
  let n := h / 2 ^ 12 % 64
  if h % 2 ^ 12 ≠ 0 ∨ n < 2 then none
  else
    let bits := pxBits (n - 2) (bytes.drop 4)
    match pxElems (h / 2 ^ 22 % 4) (h / 2 ^ 18 % 16) 32 bits with
    | none => none
    | some (xs, pad) =>
      if bits.length ≠ 16 * (n - 2) ∨ 16 ≤ pad.length ∨ pad.contains true then none else some (xs, h / 2 ^ 24)

/-- LEN of the block that begins with these bytes; a malformed header counts as 2 (R170). -/
def pxLenOf (bytes : List Nat) : Nat :=
  let h := (bytes[1]?).getD 0 + 256 * (bytes[2]?).getD 0
  Nat.max 2 (h / 2 ^ 4 % 64)

/-- PXPK (R177). -/
def execPxpk (q : R4) (a d : R4) (s : State) : Host.Outcome State Fault Refusal :=
  issue (.pxpk q a d) q s fun r x s =>
    let v := x.getV a
    .done (s.modSlot r fun x => x.setV d (vecOf 8 (pxEncode ((List.range 32).map (vbyte v)) (vbyte v 32))))

/-- PXUN (R178). -/
def execPxun (q : R4) (a d : R4) (s : State) : Host.Outcome State Fault Refusal :=
  issue (.pxun q a d) q s fun r x s =>
    let bytes := (List.range 64).map (vbyte (x.getV a))
    match (if 32 < pxLenOf bytes then none else pxDecode bytes) with
    | some (xs, sc) => .done (s.modSlot r fun x => x.setV d (vecOf 8 (xs ++ [sc])))
    | none => withFlags s r fNV fun x => x.setV d (vecOf 8 (List.replicate 32 0x7F ++ [0xFF]))

end Sys2Proof.Machine
end

