-- ==== Sys2Proof/Machine/Sync.lean ====
section
/-! DEFINITION. Messages, semaphores, slot queues, barriers and FENCE (R15, R93, R197-R206, R212-R214, R239, R311, R327, R339,
R344, R350, R356, R358, R359). -/
namespace Sys2Proof.Machine

/-! Scopes (R93). -/

/-- A power of two below 64. -/
def isPow2 (n : Nat) : Bool := [1, 2, 4, 8, 16, 32].contains n

/-- An aligned sub-rectangle of a launch rectangle that contains a core. -/
def alignedSub (rect w : Word) (c : Nat) : Bool :=
  let h := coreRow (rectHi w) + 1 - coreRow (rectLo w)
  let v := coreCol (rectHi w) + 1 - coreCol (rectLo w)
  rectOk w && coreDie (rectLo w) == coreDie (rectLo rect) &&
  coreRow (rectLo rect) ≤ coreRow (rectLo w) && coreRow (rectHi w) ≤ coreRow (rectHi rect) &&
  coreCol (rectLo rect) ≤ coreCol (rectLo w) && coreCol (rectHi w) ≤ coreCol (rectHi rect) &&
  isPow2 h && isPow2 v && (coreRow (rectLo w) - coreRow (rectLo rect)) % h == 0 &&
  (coreCol (rectLo w) - coreCol (rectLo rect)) % v == 0 && inRect w c

/-- The package scope word. -/
def scopePackage : Word := 0xFFFFFFFF
/-- The system scope word. -/
def scopeSystem : Word := 0xFFFFFFFE

/-- A rectangle operand as a scope of the slot (R15, R93): none when it is refused. -/
def scopeOf (r : SlotRef) (x : Slot) (v : Dword) (reserved : Bool) : Option Word :=
  let w := v.extractLsb' 0 32
  if v.extractLsb' 32 32 ≠ 0 then none
  else if w = scopePackage ∨ w = scopeSystem then (if reserved then some w else none)
  else match r.place with
    | .mesh c => if rectOk w && (w == x.rect || alignedSub x.rect w c) then some w else none
    | _ => none

/-- How far FENCE's scope asks (R214): 0 inside one die, 1 package, 2 system. -/
def scopeReach (w : Word) : Nat := if w = scopePackage then 1 else if w = scopeSystem then 2 else 0

/-- FENCE (R214, R327). -/
def execFence (q : R4) (a : R4) (s : State) : Host.Outcome State Fault Refusal :=
  issue (.fence q a) q s fun r x s =>
    match scopeOf r x (x.getG a) true with
    | none => trapOf cILL
    | some w => if x.drained (scopeReach w) then .done s else .park s (.drainRelaxed (scopeReach w))

/-! Barriers. -/

/-- A barrier id of a slot. -/
def Slot.bar (x : Slot) (id : R4) : Bar := tget {} x.bars id.toNat
/-- Writing a barrier id. -/
def Slot.setBar (x : Slot) (id : R4) (b : Bar) : Slot := { x with bars := tset {} x.bars id.toNat b }

/-- The rectangle of BARA and BARW, refused when it is no legal scope or not that of the open phase (R213). -/
def barScope (r : SlotRef) (x : Slot) (id a : R4) : Option Word :=
  match scopeOf r x (x.getG a) false with
  | none => none
  | some w => if (x.bar id).f < (x.bar id).a && (x.bar id).rect != w then none else some w

/-- BARA (R212). The arrival travels to the rectangle's origin core, where the phase is counted (DESIGN CHOICE, log 16). -/
def execBara (q : R4) (a id : R4) (s : State) : Host.Outcome State Fault Refusal :=
  issue (.bara q a id) q s fun r x s =>
    match barScope r x id a, r.place with
    | some w, .mesh c =>
      let b := x.bar id
      let sent : BarSent := { core := c, k := r.k, id := id.toNat, rect := w, ctx := s.loadedOn c }
      let s : State := { s.setSlot r (x.setBar id { b with a := b.a + 1, rect := w }) with barSends := s.barSends ++ [sent] }
      .done (s.route c (rectLo w) 1 false 16 (.barrierArrival c r.k id.toNat w))
    | _, _ => trapOf cILL

/-- BARW (R212). -/
def execBarw (q : R4) (a id : R4) (s : State) : Host.Outcome State Fault Refusal :=
  issue (.barw q a id) q s fun r x s =>
    match barScope r x id a with
    | none => trapOf cILL
    | some _ => if (x.bar id).a ≤ (x.bar id).f then .done s else .park s (.barw id.toNat)

/-- Whether an arrival is one of slot k at a barrier id with a rectangle. -/
def Arrived.is (b : Arrived) (k id : Nat) (w : Word) : Bool := b.k == k && b.id == id && b.rect == w

/-- The oldest counted arrival of a core's slot at a barrier (R212). -/
def State.counted (s : State) (c k id : Nat) (w : Word) : Option Arrived := (s.site c).arrived.find? fun b => b.is k id w

/-- Whether every core of a rectangle has an arrival of the open phase counted (R212). -/
def State.phaseFull (s : State) (k id : Nat) (w : Word) : Bool := (rectCores w).all fun c => (s.counted c k id w).isSome

/-- A phase completes in a core: its arrival is done with, and f rises in the slot when its context made it (R212, R349). -/
def State.phaseDoneAt (s : State) (c k id : Nat) (w : Word) : State :=
  match s.counted c k id w with
  | none => s
  | some b =>
    let s := s.modSite c fun y => { y with arrived := y.arrived.erase b }
    if !b.live then s
    else s.modSlot (meshSlot c k) fun x =>
      let b := tget {} x.bars id
      { x with bars := tset {} x.bars id { b with f := b.f + 1 } }

/-- A phase completes: f rises in every slot of it. -/
def State.phaseDone (s : State) (k id : Nat) (w : Word) : State :=
  (rectCores w).foldl (fun s c => s.phaseDoneAt c k id w) s

/-- An arrival is counted, and a phase that is full completes (R212). -/
def State.barArrive (s : State) (core k id : Nat) (rect : Word) (live : Bool) : State :=
  let s := s.modSite core fun y => { y with arrived := y.arrived ++ [{ k := k, id := id, rect := rect, live := live }] }
  if s.phaseFull k id rect then s.phaseDone k id rect else s

/-- BARRIER_ARRIVAL (R201, R212): the arrival of a swapped-out context's slot is logged; one of a launch that ended is
dropped. -/
def execBarrierArrival (core k id : Nat) (rect : Word) (s : State) : Host.Outcome State Fault Refusal :=
  match s.barSends.find? fun b => b.core == core && b.k == k && b.id == id && b.rect == rect with
  | none => .next s
  | some b =>
    let s : State := { s with barSends := s.barSends.erase b }
    match b.ctx with
    | none => .next s
    | some n =>
      if s.loadedOn core = some n then .next (s.barArrive core k id rect b.live)
      else if (s.ctx n).isNone then .next s
      else .next (s.logItem n
        { delivery := 3, core := core, slot := k, num := id, seq := 0, payload := rect.zeroExtend 64, header := 0, live := b.live })

/-! Semaphores (R204, R205). -/

/-- A semaphore of a site. -/
def Site.sem (x : Site) (j : Nat) : Sem := tget {} x.sm j

/-- An operation on a semaphore: its new value, and whether OVF went from 0 to 1. -/
def semStep (v : Sem) : SemOp → Sem × Bool
  | .add n =>
    let t := v.count.toNat + n
    if t < 2 ^ 32 then ({ v with count := BitVec.ofNat 32 t }, false)
    else ({ count := 0xFFFFFFFF, ovf := true }, !v.ovf)
  | .set n => ({ count := BitVec.ofNat 32 n, ovf := false }, false)

/-- Parked SWAITs whose thresholds are met resume (R204). -/
def State.wakeSwaits (s : State) (p j : Nat) : State :=
  (slotsAt p).foldl (fun s r =>
    match (s.slot r).status with
    | .parked (.swait i t) => if i = j ∧ t.toNat ≤ ((s.site p).sem j).count.toNat then s.complete r 1 id else s
    | _ => s) s

/-- An operation arrives at a semaphore of a site (R204, R205). -/
def State.semArrive (s : State) (p j : Nat) (op : SemOp) : State :=
  let e := semStep ((s.site p).sem j) op
  let s := s.modSite p fun x => { x with sm := tset {} x.sm j e.1 }
  let owner := match s.loadedOn p with | some n => (s.tst n).owner | none => 0
  let s := if e.2 then s.partMail (nodeOfKey p) p owner 14 { header := 0x08, payload := BitVec.ofNat 64 j } else s
  s.wakeSwaits p j

/-- SWAIT (R204, R356). -/
def execSwait (q : R4) (a j : R4) (s : State) : Host.Outcome State Fault Refusal :=
  issue (.swait q a j) q s fun r x s =>
    let t := (x.getG a).extractLsb' 0 32
    if t.toNat ≤ ((s.site (placeKey r.place)).sem j.toNat).count.toNat then .done s else .park s (.swait j.toNat t)

/-- SADD, short form (R204). -/
def execSadd (q : R4) (a j : R4) (s : State) : Host.Outcome State Fault Refusal :=
  issue (.sadd q a j) q s fun r x s =>
    .done (s.semArrive (placeKey r.place) j.toNat (.add ((x.getG a).extractLsb' 0 32).toNat))

/-- SSET (R204). -/
def execSset (q : R4) (a j : R4) (s : State) : Host.Outcome State Fault Refusal :=
  issue (.sset q a j) q s fun r x s =>
    .done (s.semArrive (placeKey r.place) j.toNat (.set ((x.getG a).extractLsb' 0 32).toNat))

/-- Scope of a release towards a core (R239): 0 die, 1 package. -/
def towards (r : SlotRef) (c : Nat) : Nat := if dieOf r.place = some (coreDie c) then 0 else 1

/-- Recording what a slot sends. -/
def State.sending (s : State) (r : SlotRef) (x : Slot) (dst : Nat) (kind : SentKind) : State :=
  { s.bump with sends := s.sends ++ [{ id := s.fresh, slot := r, dst := dst, kind := kind, tepc := x.at, owner := x.owner.toNat, ctx := s.ctxOf r }] }

/-- Sending an event from a slot to a core. -/
def State.routeFrom (s : State) (r : SlotRef) (dst cls : Nat) (cw : Bool) (bytes : Nat) (ev : Instr) : State :=
  s.route (nodeOf r.place) dst cls cw bytes ev

/-- SADD, long form (R204, R356). -/
def execSaddLong (q : R4) (b a j : R4) (s : State) : Host.Outcome State Fault Refusal :=
  issue (.saddLong q b a j) q s fun r x s =>
    let t := x.getG a
    if t.extractLsb' 13 51 ≠ 0 then trapOf cILL
    else if !x.drained (towards r t.toNat) then .park s (.drainRelaxed (towards r t.toNat))
    else
      let op : SemOp := .add ((x.getG b).extractLsb' 0 32).toNat
      let s := s.sending r x t.toNat (.sem op j.toNat)
      .done (s.routeFrom r t.toNat 0 false 16 (.semaphoreArrival t.toNat j.toNat op))

/-- The target of an operation on a semaphore (R198, R319): a slot's goes by owner, a streamer's to the context it is for. -/
def State.semTarget (s : State) (core : Nat) : Option Sent → Target
  | none => s.target core 0 false
  | some e => match e.kind with
    | .signal .. => s.toContext core e.tgt
    | _ => s.target core e.owner true

/-- SEMAPHORE_ARRIVAL (R204, R205, R356). -/
def execSemaphoreArrival (core j : Nat) (op : SemOp) (s : State) : Host.Outcome State Fault Refusal :=
  let e := s.sends.find? fun e => e.dst == core && (e.kind == .sem op j || e.kind == .signal op j)
  let s' := match e with | some e => s.sentDone e.id | none => s
  match s.semTarget core e with
  | .site => .next (s'.semArrive core j op)
  | .log n =>
    let amount := match op with | .add n => n | .set n => n
    .next (s'.logItem n { delivery := 2, core := core, slot := 0, num := j, seq := 0, payload := BitVec.ofNat 64 amount, header := 0 })
  | .drop => .next (match e with
    | some e => if e.kind == .sem op j then s'.noTarget e core else s'
    | none => s')

/-! Slot queues (R206, R344). -/

/-- A queue of a site. -/
def Site.queue (x : Site) (w : Nat) : List Dword := tget [] x.w w
/-- Setting a queue. -/
def State.setQueue (s : State) (p w : Nat) (q : List Dword) : State :=
  s.modSite p fun x => { x with w := tset [] x.w w q }

/-- An entry enters a queue: a POP parked on it takes it at once, the one that parked first. -/
def State.enqueue (s : State) (p w : Nat) (v : Dword) : State :=
  let pops (k : Park) : Bool := match k with
    | .pop w' _ => w' == w
    | _ => false
  match (if (s.site p).queue w = [] then s.firstParked (slotsAt p) pops else none) with
  | some r =>
    match (s.slot r).status with
    | .parked (.pop _ d) => s.complete r 1 fun x => x.setG d v
    | _ => s
  | none => s.setQueue p w ((s.site p).queue w ++ [v])

/-- PUSH (R206). -/
def execPush (q : R4) (w : BitVec 2) (a : R4) (s : State) : Host.Outcome State Fault Refusal :=
  issue (.push q w a) q s fun r x s =>
    let p := placeKey r.place
    if 8 ≤ ((s.site p).queue w.toNat).length then .park s (.push w.toNat (x.getG a))
    else .done (s.enqueue p w.toNat (x.getG a))

/-- The PUSH that parked first on a queue with room appends its value. -/
def State.admitPush (s : State) (p w : Nat) : State :=
  let pushes (k : Park) : Bool := match k with
    | .push w' _ => w' == w
    | _ => false
  match s.firstParked (slotsAt p) pushes with
  | some r =>
    match (s.slot r).status with
    | .parked (.push _ v) => (s.complete r 1 id).setQueue p w ((s.site p).queue w ++ [v])
    | _ => s
  | none => s

/-- POP (R206, R344). -/
def execPop (q : R4) (w : BitVec 3) (d : R4) (s : State) : Host.Outcome State Fault Refusal :=
  issue (.pop q w d) q s fun r _ s =>
    let p := placeKey r.place
    match (s.site p).queue w.toNat with
    | [] => .park s (.pop w.toNat d)
    | v :: rest => .done (((s.setQueue p w.toNat rest).modSlot r fun x => x.setG d v).admitPush p w.toNat)

/-! Messages. -/

/-- Header of a SEND (R197, R287). -/
def sendHeader (r : SlotRef) (tag : BitVec 16) (eos : Bool) : Dword :=
  BitVec.ofNat 64 (0x01 + (slotId r % 2 ^ 16) * 2 ^ 8 + tag.toNat * 2 ^ 24 + eos.toNat * 2 ^ 40 + (isCtl r.place).toNat * 2 ^ 41)

/-- SEND (R198, R358): the message enters the core's outbound queue. -/
def execSend (q : R4) (eos : Bool) (mb : R4) (b a : R4) (tag : BitVec 16) (cw : Bool) (s : State) :
    Host.Outcome State Fault Refusal :=
  issue (.send q eos mb b a tag cw) q s fun r x s =>
    let t := x.getG a
    if t.extractLsb' 13 51 ≠ 0 then trapOf cILL
    else if !x.drained (towards r t.toNat) then .park s (.drainRelaxed (towards r t.toNat))
    else
      let m : Message := { header := sendHeader r tag eos, payload := x.getG b }
      let c := placeKey r.place
      if 8 ≤ (s.site c).outbound.length then .park s .sendFull
      else
        let o : OutMsg := { id := s.fresh, dst := t.toNat, mb := mb.toNat, msg := m, cw := cw, owner := x.owner.toNat }
        let s := s.sending r x t.toNat .mail
        .done ((s.modSite c fun y => { y with outbound := y.outbound ++ [o] }).postOnce (.packetHop c 5))

/-- The first message of an outbound queue that is not held back enters the network (R198, R203). -/
def State.sendOut (s : State) (c : Nat) : State :=
  match (s.site c).outbound.find? fun o => !s.heldBack o.id with
  | none => if (s.site c).outbound = [] then s else s.postOnce (.packetHop c 5)
  | some o =>
    let sender := (s.sends.find? fun e => e.id == o.id).map fun e => e.slot
    let s := s.modSite c fun y => { y with outbound := y.outbound.filter fun p => p.id ≠ o.id }
    let s := s.route (nodeOfKey c) o.dst 0 o.cw 16 (.messageArrival o.dst o.owner o.mb o.msg sender)
    if (s.site c).outbound = [] then s else s.postOnce (.packetHop c 5)

/-- PACKET_HOP (R270): one cycle of a router; 5 is the way from a core, or from a unit, into its router. -/
def execPacketHop (router port : Nat) (s : State) : Host.Outcome State Fault Refusal :=
  if port = 5 then .next (if (s.router router).inject = [] then s.sendOut router else s.injectFlit router)
  else .next (s.routerCycle router)

/-- The target of a firing message: the context of its own turnstile, loaded or swapped out (R251, R201). -/
def State.firingTarget (s : State) (n : Nat) : Target :=
  let t := s.tst n
  if t.ctx.isNone then .drop
  else if t.isLoaded then .site
  else .log n

/-- What a streamer recorded of a message it sent (R151, R152). -/
def State.sentPart (s : State) (core mb : Nat) (msg : Message) : Option Sent :=
  s.sends.find? fun e => e.dst == core && e.kind == .part mb msg

/-- The target of a message: a firing goes to its turnstile's context, a streamer's message to the context it is for, everything
else by core and owner (R198, R251, R319). -/
def State.messageTarget (s : State) (core owner mb : Nat) (msg : Message) (sender : Option SlotRef) : Target :=
  if sender.isSome then s.target core owner true
  else if msg.header.extractLsb' 0 8 == 0x02 then s.firingTarget (msg.header.extractLsb' 8 10).toNat
  else match s.sentPart core mb msg with
    | some e => s.toContext core e.tgt
    | none => s.target core owner true

/-- MESSAGE_ARRIVAL (R198, R200, R201). A message of a slot that was lost on its way does not arrive (R265). -/
def execMessageArrival (core owner mb : Nat) (msg : Message) (sender : Option SlotRef) (s : State) :
    Host.Outcome State Fault Refusal :=
  match sender with
  | some r =>
    match s.sentMail core r with
    | none => .next s
    | some e =>
      match s.target core owner true with
      | .site => .next (s.mailTo core mb msg)
      | .log n => .next (s.logItem n (mailItem core mb msg))
      | .drop => .next ((s.sentDone e.id).noTarget e core)
  | none =>
    let s' := match s.sentPart core mb msg with | some e => s.sentDone e.id | none => s
    match s.messageTarget core owner mb msg none with
    | .site => .next (s'.mailTo core mb msg)
    | .log n =>
      if s.noticeHeld core msg then .next (s.post (.messageArrival core owner mb msg none))
      else .next (s'.logItem n (mailItem core mb msg))
    | .drop => .next (match s.sentNotice core msg with | some e => s'.sentDone e.id | none => s')

/-- MAILBOX_DIVERT (R201, R203): the oldest message that waits for a full mailbox goes to the arrival log; one that was held back is
placed when there is room. Notices that are still held back stand aside. -/
def execMailboxDivert (core mb : Nat) (s : State) : Host.Outcome State Fault Refusal :=
  match s.firstWaiting core mb with
  | none => .next (if (s.site core).waiting mb = [] then s else s.post (.mailboxDivert core mb))
  | some m =>
    if ((s.site core).mail mb).length < 8 ∧ (s.mailLogged core mb).isNone then .next (s.mailFree core mb)
    else
      let s := s.unwait core mb m
      match s.loadedOn core with
      | some n => .next (s.logItem n (mailItem core mb m))
      | none => .next s

/-- The oldest logged message for a mailbox moves into it, when it has a free entry (R201). -/
def State.moveLogged (s : State) (n core mb : Nat) (c : Context) : State :=
  match c.logged core mb with
  | none => s
  | some i =>
    if 8 ≤ ((s.site core).mail mb).length then s
    else
      let m := s.loggedMail n i
      let s := (s.logDrop n i).placeMail core mb m
      if ((s.site core).mail mb).length < 8 then s.mailFree core mb else s

/-- Lowest mailbox of a mask that holds a message (R199). -/
def firstMail (x : Site) (mask : BitVec 16) : Option (Nat × Message) :=
  (List.range 16).findSome? fun j =>
    if mask.getLsbD j then match x.mail j with
      | m :: _ => some (j, m)
      | [] => none
    else none

/-- RECV (R199, R200, R350). -/
def execRecv (q : R4) (mask : BitVec 16) (pair : BitVec 3) (s : State) : Host.Outcome State Fault Refusal :=
  issue (.recv q mask pair) q s fun r _ s =>
    let p := placeKey r.place
    match firstMail (s.site p) mask with
    | none => .park s (.recv mask pair)
    | some (j, m) =>
      let s := s.modSite p fun y => { y with mb := tset [] y.mb j ((y.mail j).drop 1) }
      let s := s.modSlot r fun x => recvRegs x pair j m
      .done ((s.popped m).mailFree p j)

/-! SENDT. -/

/-- Reads of a payload: 8 bytes each, the rest at the end (R359). -/
def payloadWants (p n : Nat) : List Want :=
  (List.range ((n + 7) / 8)).map fun i =>
    { off := BitVec.ofNat 64 (p + 8 * i), size := Nat.min 8 (n - 8 * i), al := 1, pos := 8 * i }

/-- Whether a slot has a SENDT to a device that is not answered yet: its next one is held back (R203, R277). -/
def State.sendtOut (s : State) (r : SlotRef) (dev : Nat) : Bool :=
  s.iod.requests.any fun q => q.slot == r && q.dev == dev && q.what == .sendt

/-- SENDT (R359): it parks until the I/O die has accepted the message. -/
def execSendt (q : R4) (c b a : R4) (tag : Word) (s : State) : Host.Outcome State Fault Refusal :=
  issue (.sendt q c b a tag) q s fun r x s =>
    let d := (x.getG a).toNat
    let p := (x.getG b).toNat
    let n := (x.getG c).toNat
    if 2 ^ 16 ≤ d ∨ 240 < n ∨ p % 8 ≠ 0 then trapOf cILL
    else match s.places r 0 .load (payloadWants p n) with
      | .trap c a => trapOf c a
      | .denied a => trapOf cSEGV a
      | .park k => .park s k
      | .ok ps =>
        if x.unperformed (piecesOf ps) then .park s (.egress ((piecesOf ps).head?.map Piece.key |>.getD 0) n)
        else match ps.find? fun p => match p.piece with | some pc => s.piecePoisoned pc | none => false with
          | some p => trapOf cPOIS p.addr
          | none =>
            let (parts, s) := s.readParts r ps
            let payload := assemble n parts
            if d = 0 ∨ d = s.iod.devid.toNat % 2 ^ 16 then
              .park (s.route (nodeOf r.place) ioNode 0 false n (.taggedMessage
                { tag := tag.toNat, owner := x.owner.toNat, device := 0, sender := slotId r, payload := payload })) .sendt
            else
              let fault : AsyncFault := { id := s.fresh, tepc := x.at, cause := cRWR, taddr := BitVec.ofNat 64 tag.toNat, reason := 2 }
              match s.iod.route d with
              | none => .done (s.bump.asyncFault r fault)
              | some port =>
                if s.sendtOut r d then .park s (.sendHeld d)
                else
                let rq : Request :=
                  { id := s.fresh, group := s.fresh, slot := r, tepc := x.at, words := 2, addr := tag.zeroExtend 64, pos := 0, n := 0, got := none, what := .sendt, dev := d, owner := x.owner.toNat, acct := s.acctOf r, ctx := s.ctxOf r }
                let pk : Packet :=
                  { dst := d, src := 0, sock := socketOf r.place, cls := 0, owner := x.owner.toNat, op := 6, tag := tag.toNat, addr := 0, asub := 0, len := n, seq := 0, payload := payload }
                .done (((s.bump.transit (nodeOf r.place) ioNode 0 n).modIod fun y => { y with requests := y.requests ++ [rq] }).emit port (s.acctOf r) pk)

end Sys2Proof.Machine
end

