-- ==== Sys2Proof/Machine/MatrixRead.lean ====
section
/-! DEFINITION. Where the operands of matrix commands lie, and the banks whose drains wait for them (R103, R181, R183, R184, R195). -/
namespace Sys2Proof.Machine

/-- Whether a core runs (R113): a started launch that was not revoked, with a slot that is not benched. -/
def State.running (s : State) (c : Nat) : Bool :=
  (s.loadedOn c).isSome && !(s.site c).revoked && (s.site c).revoking.isNone &&
  (coreSlots c).any fun r => (s.slot r).status != Status.free && (s.slot r).status != Status.benched

/-- What reading local memory for a command answers. -/
inductive LocalAt where
  | keys (k : Nat)
  | trap (cause : Nat) (taddr : Dword)
  | wait

/-- Where a run within one window is, by R103: in the bank attached there, also while it drains for a HOVR, or in the bank that a DTCH
took from it since the command was queued (R195); a bank that has still to leave retention is waited for (R103). -/
def State.localAt (s : State) (core : Nat) (held : List HeldBank) (a : Nat) (acc : Acc) : LocalAt :=
  let w := a / 2 ^ 16
  let at_ (bank : Nat) (rd wr : Bool) : LocalAt :=
    if (acc.writes && !wr) || (!acc.writes && !rd) then .trap cSEGV (BitVec.ofNat 64 a) else .keys (bankKey bank (a % 2 ^ 16))
  match held.find? fun h => h.w == w with
  | some h => if (s.bank h.bank).landing.isSome then .wait else at_ h.bank h.rd h.wr
  | none =>
    if 2 ^ 20 ≤ a then .trap cSEGV (BitVec.ofNat 64 a)
    else match s.windowLook core a acc with
      | .at (.run k _) => .keys k
      | .trap c t => .trap c t
      | .denied t => .trap cSEGV t
      | _ => .wait

/-- A run of local bytes: address and length. -/
abbrev LRun := Nat × Nat

/-- Whether a run crosses the boundary of a window. -/
def crosses (r : LRun) : Bool := 2 ^ 16 < r.1 % 2 ^ 16 + r.2

/-- An operand (R181, R183): where it is, its format, stride, K and scale array (0 is none). -/
structure OpSpec where
  addr : Nat
  fmt : R4
  stride : Nat
  k : Nat
  scl : Nat
  deriving DecidableEq, Repr

/-- The operand a shape record describes. -/
def opSpec (addr : Nat) (shape : BitVec 256) (k scl : Nat) : OpSpec :=
  let f := shFmt shape
  { addr := addr, fmt := f, stride := shStride shape 1, k := k, scl := if f = 11 ∨ f = 12 then scl else 0 }

/-- Element bytes of an operand. -/
def OpSpec.elem (o : OpSpec) : Nat := Fmt.bytes (fmtOf o.fmt)
/-- Runs checked at issue (R184 item 2): the rows, or for px8 the directory words, and the scale array. -/
def OpSpec.issueRuns (o : OpSpec) : List LRun :=
  ((List.range 16).map fun m =>
    if o.fmt = 14 then (o.addr + 4 * m * o.stride, 4) else (o.addr + m * o.stride, o.k * o.elem)) ++
  (if o.scl = 0 then [] else [(o.scl, 16 * (o.k / 32))])

/-- What measuring rows answers: the runs of the rows, as far as each could be measured, the first byte beyond the window of the first
row that crosses one, and what stopped the first row that could not be read (R103). -/
structure RowRuns where
  rows : List LRun
  cross : Option Nat := none
  stop : Option LocalAt := none

/-- A px8 row block by block (R184 item 4). -/
def State.pxRow (s : State) (core : Nat) (held : List HeldBank) (start : Nat) : Nat → Nat → RowRuns
  | 0, len => { rows := [(start, len)] }
  | left + 1, len =>
    let a := start + len
    let beyond := (start / 2 ^ 16 + 1) * 2 ^ 16
    if beyond < a + 4 then { rows := [(start, len)], cross := some beyond }
    else match s.localAt core held a .load with
      | .keys k =>
        let n := 2 * pxLenOf ((s.bytes k 4).map BitVec.toNat)
        if beyond < a + n then { rows := [(start, len)], cross := some beyond } else s.pxRow core held start left (len + n)
      | o => { rows := [(start, len)], stop := some o }

/-- Row m of a px8 operand, from its directory word. -/
def State.pxRowAt (s : State) (core : Nat) (held : List HeldBank) (o : OpSpec) (m : Nat) : RowRuns :=
  match s.localAt core held (o.addr + 4 * m * o.stride) .load with
  | .keys k => s.pxRow core held (o.addr + s.num k 4) (o.k / 32) 0
  | p => { rows := [], stop := some p }

/-- Runs of an operand's rows as the command runs. Every px8 row is measured, so that a crossing in a later row is found before
what stops an earlier one (R184 items 4-6). -/
def State.opRows (s : State) (core : Nat) (held : List HeldBank) (o : OpSpec) : RowRuns :=
  if o.fmt ≠ 14 then { rows := (List.range 16).map fun m => (o.addr + m * o.stride, o.k * o.elem) }
  else
    (List.range 16).foldl (fun (r : RowRuns) m =>
      let n := s.pxRowAt core held o m
      { rows := r.rows ++ n.rows, cross := r.cross.or n.cross, stop := r.stop.or n.stop }) { rows := [] }

/-- The runs that an operand is read from, as far as they are known: a px8 operand's rows too. -/
def State.readRuns (s : State) (core : Nat) (held : List HeldBank) (o : OpSpec) : List LRun :=
  o.issueRuns ++ if o.fmt = 14 then (s.opRows core held o).rows else []

/-- Element bytes of FMTC; f48 is stored in 8 (R194). -/
def fmtcBytes (fmtc : R4) : Nat := Fmt.bytes (fmtOf fmtc)

/-- Rows of a local MSTO (R194). -/
def mstoRuns (addr : Nat) (h : BitVec 256) (fmtc : R4) : List LRun :=
  (List.range 16).map fun m => (addr + m * shStride h 1, 16 * fmtcBytes fmtc)

/-- The memory operands that a queued command has still to read. -/
def Queued.reads (e : Queued) : List OpSpec :=
  match e.cmd with
  | .mma _ addr shape b nb _ _ cfg =>
    if e.summed then []
    else opSpec addr shape (32 * (nb + 1)) cfg.scla :: match b with
      | .mem ab sb => [opSpec ab sb (32 * (nb + 1)) cfg.sclb]
      | .lat _ => []
  | .mlatch _ addr h sclb => [opSpec addr h (shDim h 0) sclb]
  | _ => []

/-- The local runs that a queued command reads or writes, as far as they are known (R195). -/
def State.cmdRuns (s : State) (core : Nat) (e : Queued) : List LRun :=
  match e.cmd with
  | .mstoMem _ _ s0 addr h fmtc _ => if s0 then mstoRuns addr.toNat h fmtc else []
  | _ => e.reads.flatMap (s.readRuns core e.held)

/-- Whether a queued command waits for a word that says where its px8 rows lie: they may lie in any window (DEDUCED, log 103). -/
def State.rowsOpen (s : State) (core : Nat) (e : Queued) : Bool :=
  e.reads.any fun o => match (s.opRows core e.held o).stop with
    | some .wait => true
    | _ => false

/-- Whether a queued command reads or writes a window, or may (R195). -/
def State.mayRead (s : State) (core : Nat) (e : Queued) (w : Nat) : Bool :=
  (s.cmdRuns core e).any (fun r => r.1 / 2 ^ 16 == w) || s.rowsOpen core e

/-- A bank is to leave window w of a core: the drain waits for every queued command that reads or writes it there, or may (R109, R112,
R195). -/
def State.holdReads (s : State) (core w : Nat) : State :=
  let e := s.entry core w
  let h : HeldBank := { w := w, bank := e.bank, rd := e.rd, wr := e.wr }
  s.modSite core fun y => { y with w5 := y.w5.map fun q => if s.mayRead core q w && !q.held.contains h then { q with held := q.held ++ [h] } else q }

/-- No command waits for a bank any more. -/
def State.unholdBank (s : State) (core b : Nat) : State :=
  s.modSite core fun y => { y with w5 := y.w5.map fun q => { q with held := q.held.filter fun h => h.bank != b } }

/-- No command waits any more for the bank of window w of a core: it has left, or stays there. -/
def State.unholdReads (s : State) (core w : Nat) : State :=
  s.modSite core fun y => { y with w5 := y.w5.map fun q => { q with held := q.held.filter fun h => h.w != w } }

/-- Whether a saved command of a swapped-out context has still to reach a bank that left its window (R195). -/
def State.savedHolds (s : State) (b : Nat) : Bool :=
  s.turnstiles.any fun t => match t.2.ctx.bind Context.saved with
    | some v => v.sites.any fun y => y.2.w5.any fun e => e.held.any fun h => h.bank == b
    | none => false

end Sys2Proof.Machine
end

