-- ==== Sys2Proof/Machine/Banks.lean ====
section
/-! DEFINITION. Banks: claims, grants, hand-over, retention, revocation, owner changes (R102-R125, R330, R389). -/
namespace Sys2Proof.Machine

/-! Paddocks and entries. -/

/-- Distance of two indices. -/
def apart (a b : Nat) : Nat := (a - b) + (b - a)
/-- The paddock of a bank (R105); a bank whose site is unusable reaches no core (R17; the code, DESIGN CHOICE, log 66). -/
def State.inPaddock (s : State) (b c : Nat) : Bool :=
  let t := bankSite b
  coreDie t == coreDie c && apart (coreRow t) (coreRow c) ≤ 2 && apart (coreCol t) (coreCol c) ≤ 2 && !s.dead c && !s.dead t

/-- BQRY's word (R102, R110). -/
def entryWord (e : Entry) : Dword :=
  BitVec.ofNat 64 (e.bank % 2 ^ 16 + e.att.toNat * 2 ^ 16 + e.clm.toNat * 2 ^ 17 + e.rd.toNat * 2 ^ 18 + e.wr.toNat * 2 ^ 19 +
    e.fault.toNat * 2 ^ 20 + e.land.toNat * 2 ^ 21 + e.rsn.toNat * 2 ^ 22 + e.owner.toNat * 2 ^ 32 + e.gen.toNat * 2 ^ 48)

/-- An empty window with a mode (R109); RSN stays (R102). -/
def emptyEntry (fault : Bool) (rsn : BitVec 3) : Entry := { fault := fault, rsn := rsn }

/-- Whether a key is a byte of a bank. -/
def inBank (b key : Nat) : Bool := bankKey b 0 ≤ key && key < bankKey b 0 + 2 ^ 16

/-- Whether the drain of a bank has to wait (R109, R112): relaxed accesses of the core's slots to it, atomics and waits in
the reservation queues of its words (not for HOVR, which is then refused, R303), matrix commands (R195), a swapped-out context's too,
inbound copies, a landing. -/
def State.bankBusy (s : State) (b core : Nat) (waits : Bool) : Bool :=
  ((coreSlots core).any fun r =>
    (s.slot r).relaxed.any (fun a => a.pieces.any fun p => inBank b p.key) ||
    match (s.slot r).resv with
    | some v => waits && (v.atomic || !v.held) && inBank b v.key
    | none => false) ||
  (s.site core).w5.any (fun e => e.held.any fun h => h.bank == b && s.mayRead core e h.w) || s.savedHolds b ||
  s.copies.any (fun c => c.bank == b || (c.kind == .cpyx && c.farBank == b)) ||
  (s.bank b).landing.isSome

/-! Grants and refusals (R108, R121, R389). -/

/-- The bank image of a load's claim is written into the bank (R389). Poison marks of a bank that stays with its owner
stay (log 84). -/
def State.writeImage (s : State) (b : Nat) (c : Claim) : State :=
  match c.image with
  | some (pa, n) => (s.setBytes (bankKey b 0) (s.physBytes pa n)).ownLines (bankSite b) false pa n
  | none => s

/-- A bank lands in a window: at once, or out of retention with LAND = 1 (R121). RSN stays (R102). -/
def State.landBank (s : State) (b : Nat) (c : Claim) (rd wr : Bool) : State :=
  let k := s.bank b
  let gen := k.gen + 1
  let e : Entry :=
    { bank := b, att := true, rd := rd, wr := wr, land := k.fallow, owner := k.owner, gen := gen, rsn := (s.entry c.core c.w).rsn }
  let s := s.setEntry c.core c.w e
  let s := s.modBank b fun k =>
    { k with att := true, win := c.w, core := some c.core, gen := gen, reserved := none, landing := if k.fallow then some c else none }
  if !k.fallow then s.writeImage b c
  else if k.entering then s
  else s.post (.retentionExitEnd b)

/-- Something lands for a swapped-out context: the bank is held fallow for it, and its log says so (R117). -/
def State.holdBank (s : State) (b : Nat) (v : Reserved) : State :=
  let s := if (s.bank b).fallow then s else (s.modBank b fun k => { k with fallow := true, entering := true }).post (.retentionEntryEnd b)
  let s := s.modBank b fun k => { k with att := false, reserved := some v }
  s.logItem v.ctx { delivery := 4, core := v.core, slot := 0, num := v.w, seq := 0, payload := BitVec.ofNat 64 b, header := 0 }

/-- Whether a site's window claims a bank. -/
def Site.claims (y : Site) (w b : Nat) : Bool :=
  let e := tget {} y.attach w
  e.clm && e.bank == b

/-- The turnstile of the launch whose window made a claim: the loaded one, else one swapped out (R107, R117). -/
def State.claimant (s : State) (b core w owner : Nat) : Option Nat :=
  match s.loadedOn core with
  | some n => if (s.tst n).owner == owner && (s.site core).claims w b then some n else away
  | none => away
where
  /-- A swapped-out launch of the owner whose saved window claims the bank. -/
  away : Option Nat :=
    (s.turnstiles.find? fun e => e.2.owner == owner && match e.2.ctx.bind Context.saved with
      | some v => v.sites.any fun y => y.1 == core && y.2.claims w b
      | none => false).map Prod.fst

/-- Where a claim's answer goes. -/
def State.claimTarget (s : State) (c : Claim) : Target :=
  match c.ctx with
  | none => .drop
  | some n =>
    if (s.tst n).ctx.isNone then .drop
    else if s.loadedOn c.core = some n then .site
    else .log n

/-- A claim is granted (R108, R117). -/
def State.grant (s : State) (b : Nat) (c : Claim) : State :=
  match s.claimTarget c with
  | .site => s.landBank b c true true
  | .log n => s.holdBank b { ctx := n, core := c.core, w := c.w, rd := true, wr := true, image := c.image }
  | .drop => s

/-- A claim is refused with a reason (R108); the saved entry of a swapped-out context takes it too. -/
def State.refuse (s : State) (c : Claim) (rsn : Nat) : State :=
  let set (y : Site) : Site :=
    let e := tget {} y.attach c.w
    if e.clm then { y with attach := tset {} y.attach c.w { fault := true, rsn := BitVec.ofNat 3 rsn } } else y
  match s.claimTarget c with
  | .site => s.modSite c.core set
  | .log n => s.modCtx n fun x => { x with saved := x.saved.map fun v =>
      { v with sites := v.sites.map fun e => if e.1 = c.core then (e.1, set e.2) else e } }
  | .drop => s

/-- A claim against a bank's state (R108); one that comes during a DTCH's drain is held before any test. -/
def State.takeClaim (s : State) (b : Nat) (c : Claim) : State :=
  let k := s.bank b
  if k.drain = some .dtch then s.modBank b fun k => { k with heldClaims := k.heldClaims ++ [c] }
  else if s.dead (bankSite b) then s.refuse c 7
  else if k.clearing ∨ k.owner.toNat ≠ c.owner then s.refuse c 4
  else if k.revoked then s.refuse c 5
  else if !s.inPaddock b c.core then s.refuse c 1
  else if !k.att && k.reserved.isNone && k.drain.isNone then s.grant b c
  else if k.queue.length < 8 then s.modBank b fun k => { k with queue := k.queue ++ [c] }
  else s.refuse c 6

/-- CLAIM_ARRIVAL (R108): a claim that was withdrawn on its way does nothing. -/
def execClaimArrival (bank core w owner : Nat) (s : State) : Host.Outcome State Fault Refusal :=
  if (s.bank bank).withdrawn.contains (core, w, owner) then
    .next (s.modBank bank fun k => { k with withdrawn := k.withdrawn.erase (core, w, owner) })
  else match s.claimant bank core w owner with
  | none => .next s
  | some n => .next (s.takeClaim bank { core := core, w := w, owner := owner, ctx := some n })

/-- ATCH (R107). -/
def execAtch (q : R4) (a w : R4) (s : State) : Host.Outcome State Fault Refusal :=
  issue (.atch q a w) q s fun r x s =>
    match r.place with
    | .mesh c =>
      let b := x.getG a
      let e := s.entry c w.toNat
      if b.extractLsb' 16 48 ≠ 0 ∨ (b.extractLsb' 10 3).toNat ≠ coreDie c ∨ e.att ∨ e.clm then trapOf cBANK b
      else
        let s := s.setEntry c w.toNat { e with clm := true, bank := b.toNat, rsn := 0 }
        .done (s.route c (bankSite b.toNat) 1 false 0 (.claimArrival b.toNat c w.toNat x.owner.toNat))
    | _ => trapOf cILL

/-- BQRY (R110). -/
def execBqry (q : R4) (w d : R4) (s : State) : Host.Outcome State Fault Refusal :=
  issue (.bqry q w d) q s fun r _ s => doneG s r d (entryWord (s.entry (placeKey r.place) w.toNat))

/-! Detaching (R108, R109). -/

/-- Every queued claim of a bank is refused with a reason. -/
def State.refuseQueued (s : State) (b rsn : Nat) : State :=
  (s.bank b).queue.foldl (fun s c => s.refuse c rsn) (s.modBank b fun k => { k with queue := [] })

/-- A bank without a holder goes to its oldest queued claim, else into retention; held claims are then taken in order. On an
unusable site no claim is granted (R17). -/
def State.release (s : State) (b : Nat) : State :=
  let s := if s.dead (bankSite b) then s.refuseQueued b 7 else s
  let k := s.bank b
  let held := k.heldClaims
  let s := s.modBank b fun k => { k with att := false, drain := none, reserved := none, heldClaims := [] }
  let s := match k.queue with
    | c :: rest => (s.modBank b fun k => { k with queue := rest }).grant b c
    | [] => if k.fallow then s else (s.modBank b fun k => { k with fallow := true, entering := true }).post (.retentionEntryEnd b)
  held.foldl (fun s c => s.takeClaim b c) s

/-- DTCH (R109, R115). -/
def execDtch (q : R4) (fault : Bool) (w : R4) (s : State) : Host.Outcome State Fault Refusal :=
  issue (.dtch q fault w) q s fun r _ s =>
    let c := placeKey r.place
    let e := s.entry c w.toNat
    if s.handing c w.toNat then .park s (.handing c w.toNat)
    else if e.att then
      .done ((((s.holdReads c w.toNat).setEntry c w.toNat (emptyEntry fault e.rsn)).modBank e.bank fun k => { k with drain := some .dtch }).post (.dtchDrainEnd e.bank))
    else if e.clm then
      .done ((s.setEntry c w.toNat (emptyEntry fault e.rsn)).withdrawClaim e.bank c w.toNat (s.site c).launch)
    else .done (s.setEntry c w.toNat { e with fault := fault })

/-- DTCH_DRAIN_END (R109). -/
def execDtchDrainEnd (bank : Nat) (s : State) : Host.Outcome State Fault Refusal :=
  let k := s.bank bank
  if k.drain.isNone then .next s
  else if s.bankBusy bank (k.core.getD (bankSite bank)) true then .next (s.post (.dtchDrainEnd bank))
  else .next ((s.unholdBank (k.core.getD (bankSite bank)) bank).release bank)

/-- Re-encoding reads every word of a bank: the errors that its code corrects are corrected (R120-R122). -/
def State.reencode (s : State) (b : Nat) : State :=
  ((s.wrong.map Prod.fst).filter (inBank b)).foldl State.correctUnit s

/-- RETENTION_ENTRY_END (R121): the bank is fallow; a grant that waited performs its exit. -/
def execRetentionEntryEnd (bank : Nat) (s : State) : Host.Outcome State Fault Refusal :=
  let k := s.bank bank
  if !k.entering then .next s
  else
    let s := (s.reencode bank).modBank bank fun k => { k with entering := false }
    .next (if k.landing.isSome then s.post (.retentionExitEnd bank) else s)

/-- RETENTION_EXIT_END (R121, R389): the image of a load's claim is written, then LAND clears. -/
def execRetentionExitEnd (bank : Nat) (s : State) : Host.Outcome State Fault Refusal :=
  let k := s.bank bank
  match k.landing with
  | none => .next s
  | some c =>
    if k.entering then .next s
    else
      let s := (s.reencode bank).writeImage bank c
      let s := s.modBank bank fun k => { k with fallow := false, landing := none }
      let e := s.entry c.core c.w
      .next (if e.att && e.bank == bank then s.setEntry c.core c.w { e with land := false } else s)

/-! Hand-over (R111-R117, R330). -/

/-- HOVR's first part (R112): the operand and the source window. -/
def handOver (r : SlotRef) (x : Slot) (s : State) (fault : Bool) (a w : R4) (notice : Option (Nat × Dword)) : Res :=
  let c := placeKey r.place
  let t := x.getG a
  if t.extractLsb' 13 3 ≠ 0 ∨ t.extractLsb' 20 44 ≠ 0 then trapOf cILL
  else if s.handing c w.toNat then .park s (.handing c w.toNat)
  else if !(s.entry c w.toNat).att then trapOf cBANK (w.zeroExtend 64)
  else .park ((s.holdReads c w.toNat).post (.hovrSwap r)) (.hovr w.toNat t fault notice)

/-- HOVR without a notice (R111, R112). -/
def execHovr (q : R4) (fault : Bool) (b a w : R4) (s : State) : Host.Outcome State Fault Refusal :=
  issue (.hovr q fault b a w) q s fun r x s => handOver r x s fault a w none

/-- HOVR with an arrival notice (R111, R112, R114). -/
def execHovrNotice (q : R4) (mb : R4) (fault : Bool) (b a w : R4) (s : State) : Host.Outcome State Fault Refusal :=
  issue (.hovrNotice q mb fault b a w) q s fun r x s => handOver r x s fault a w (some (mb.toNat, x.getG b))

/-- Whether a slot of a core holds or awaits a reservation on a word of a bank (R113). -/
def State.reservedOn (s : State) (c b : Nat) : Bool :=
  (coreSlots c).any fun r => match (s.slot r).resv with
    | some v => inBank b v.key
    | none => false

/-- The entry of a window of a swapped-out context. -/
def State.savedEntry (s : State) (n c w : Nat) : Entry :=
  match s.ctx n with
  | some x => match x.saved with
    | some v => tget {} (tget {} v.sites c).attach w
    | none => {}
  | none => {}

/-- Windows 0-7 of a context that is not yet loaded are to hold the core's own site banks (R104). -/
def State.loadsWindow (s : State) (n w : Nat) : Bool :=
  match s.ctx n with
  | some c => c.unloaded && w < 8
  | none => false

/-- Whether the window that a hand-over names is empty (R112): of a swapped-out context, no bank may be held for it either, nor may
its first load give it one (R104). -/
def State.windowEmpty (s : State) (at_ : Target) (t w : Nat) : Bool :=
  match at_ with
  | .log n =>
    let e := s.savedEntry n t w
    !e.att && !e.clm && !s.loadsWindow n w && !s.banks.any fun k => match k.2.reserved with
      | some v => v.ctx == n && v.core == t && v.w == w
      | none => false
  | _ => !(s.entry t w).att && !(s.entry t w).clm

/-- Whether a core of a swapped-out context is revoked, or is to be at its restore (R115, R118, R266). -/
def State.revokedOut (s : State) (n c : Nat) : Bool :=
  match s.ctx n with
  | none => false
  | some x => (x.pendingRevoke.any fun r => r.place == .mesh c) || match x.saved with
    | some v => let y : Site := tget {} v.sites c; y.revoked || y.revoking.isSome
    | none => false

/-- Whether the target of a hand-over takes nothing (R113, R115): its core does not run, or is revoked. -/
def State.handRefused (s : State) (at_ : Target) (t : Nat) : Bool :=
  match at_ with
  | .log n => s.revokedOut n t
  | _ => !s.running t

/-- The refusal code of a hand-over (R112, R113); 0 is a swap. -/
def State.handCode (s : State) (src b t w owner : Nat) : Nat :=
  let at_ := s.target t owner true
  if !s.inPaddock b t then 1
  else if !s.windowEmpty at_ t w then 2
  else if s.handRefused at_ t then 3
  else if at_ == Target.drop then 4
  else if s.reservedOn src b then 5
  else 0

/-- Header of an arrival notice (R114). -/
def noticeHeader (r : SlotRef) (b w : Nat) (gen : BitVec 16) : Dword :=
  BitVec.ofNat 64 (0x03 + (slotId r % 2 ^ 16) * 2 ^ 8 + b * 2 ^ 24 + gen.toNat * 2 ^ 40 + w * 2 ^ 56)

/-- HOVR_SWAP (R112, R114, R117, R203): after the drain the bank changes windows, or the hand-over is refused. -/
def execHovrSwap (r : SlotRef) (s : State) : Host.Outcome State Fault Refusal :=
  match (s.slot r).status with
  | .parked (.hovr w t fault notice) =>
    let c := placeKey r.place
    let e := s.entry c w
    let b := e.bank
    if s.bankBusy b c false then .next (s.post (.hovrSwap r))
    else
      let owner := (s.slot r).owner.toNat
      let tc := (t.extractLsb' 0 13).toNat
      let tw := (t.extractLsb' 16 4).toNat
      match s.handCode c b tc tw owner with
      | 0 =>
        let gen := (s.bank b).gen + 1
        let s := ((s.unholdReads c w).transit c tc 1 16).setEntry c w (emptyEntry fault e.rsn)
        let s := match s.target tc owner true with
          | .log n => s.holdBank b { ctx := n, core := tc, w := tw, rd := e.rd, wr := e.wr }
          | _ =>
            let e' : Entry :=
              { bank := b, att := true, rd := e.rd, wr := e.wr, owner := BitVec.ofNat 16 owner, gen := gen, rsn := (s.entry tc tw).rsn }
            (s.setEntry tc tw e').modBank b fun k => { k with win := tw, core := some tc, gen := gen }
        let s := match notice with
          | some (mb, pay) =>
            let m : Message := { header := noticeHeader r b tw gen, payload := pay }
            (s.sending r (s.slot r) tc (.notice mb m)).partMail c tc owner mb m 1
          | none => s
        .next (s.complete r 1 fun x => x.setQ 15 true)
      | n => .next ((s.unholdReads c w).complete r 1 fun x => { x.setQ 15 false with hstat := BitVec.ofNat 3 n })
  | _ => .next s

/-! Revocation (R118, R119). -/

/-- Windows of a core with a bank attached. -/
def State.attachedWindows (s : State) (c : Nat) : List Nat := (List.range 16).filter fun w => (s.entry c w).att

/-- A bank is detached and revoked: its window is empty in fault mode (R296), its queued claims are refused, it enters
retention (R108, R118). -/
def State.revokeBank (s : State) (c w : Nat) : State :=
  let e := s.entry c w
  let b := e.bank
  let claims := (s.bank b).queue ++ (s.bank b).heldClaims
  let s := s.setEntry c w (emptyEntry true 0)
  let s := s.modBank b fun k =>
    { k with att := false, revoked := true, fallow := true, entering := true, queue := [], heldClaims := [], drain := none }
  (claims.foldl (fun s k => s.refuse k 5) s).post (.retentionEntryEnd b)

/-- REVOCATION_DETACH (R118 steps 2-4, R119, R292, R303): an atomic at the head of its queue completes first. -/
def execRevocationDetach (core : Nat) (s : State) : Host.Outcome State Fault Refusal :=
  match (s.site core).revoking with
  | none => .next s
  | some v =>
    let ws := s.attachedWindows core
    if ((coreSlots core).any fun r => (s.slot r).atomicHead) || ws.any fun w => s.bankBusy (s.entry core w).bank core false then
      .next (s.post (.revocationDetach core))
    else
      let s := (coreSlots core).foldl (fun s r =>
        if (s.slot r).status = Status.free ∨ (s.slot r).status = Status.benched then s
        else ((if (s.slot r).spawned then s.endSpawned core r.k else s).leaveResv r).modSlot r Slot.bench) s
      let id := slotId v.slot % 2 ^ 16
      let record (w : Nat) : Message :=
        { header := BitVec.ofNat 64 (0x04 + id * 2 ^ 8), payload := BitVec.ofNat 64 ((s.entry core w).bank + w * 2 ^ 16) }
      let mask := ws.foldl (fun m w => m + 2 ^ w) 0
      let summary : Message :=
        { header := BitVec.ofNat 64 (0x05 + id * 2 ^ 8), payload := BitVec.ofNat 64 (v.tcause + mask * 2 ^ 8) }
      let s' := ws.foldl (fun s w => s.revokeBank core w) s
      let s' := s'.modSite core fun y => { y with revoking := none, revoked := true, w5 := [] }
      let s' := (ws.map record ++ [summary]).foldl (fun s m => s.partMail core v.origin v.owner 13 m) s'
      .next (s'.duty (1 + coreDie core) 2 (1 + coreDie core) (BitVec.ofNat 64 core) false)

/-! BCMD (R124, R125). -/

/-- A command ends with a status. -/
def State.bcmdEnd (s : State) (d st : Nat) : State := s.modDie d fun x => { x with bcmd := bcmdWith x.bcmd st }

/-- Whether a bank is detached and free for a command; a bank of another die or of an unusable site is not (log 30). -/
def State.bankFree (s : State) (d b : Nat) : Bool :=
  let k := s.bank b
  coreDie (bankSite b) == d && !s.dead (bankSite b) && !k.att && k.reserved.isNone && k.drain.isNone && !k.clearing

/-- BCMD_ATTACH (R124). When several statuses apply, 2 goes before 3 before 4 (DESIGN CHOICE, log 67). -/
def execBcmdAttach (die : Nat) (value : Dword) (s : State) : Host.Outcome State Fault Refusal :=
  let b := (value.extractLsb' 0 16).toNat
  let c := (value.extractLsb' 16 13).toNat
  let w := (value.extractLsb' 32 4).toNat
  let e := s.entry c w
  if !s.bankFree die b then .next (s.bcmdEnd die 2)
  else if e.att || e.clm then .next (s.bcmdEnd die 3)
  else if !s.inPaddock b c || s.target c (s.bank b).owner.toNat true != Target.site then .next (s.bcmdEnd die 4)
  else
    let s := s.modBank b fun k => { k with revoked := false }
    .next ((s.landBank b { core := c, w := w, owner := (s.bank b).owner.toNat } (value.getLsbD 39) (value.getLsbD 40)).bcmdEnd die 0)

/-- BCMD_SETOWNER (R124, R125): queued claims are refused; the words are then cleared. -/
def execBcmdSetowner (die : Nat) (value : Dword) (s : State) : Host.Outcome State Fault Refusal :=
  let b := (value.extractLsb' 0 16).toNat
  if !s.bankFree die b then .next (s.bcmdEnd die 2)
  else
    let claims := (s.bank b).queue ++ (s.bank b).heldClaims
    let s := s.modBank b fun k => { k with queue := [], heldClaims := [], clearing := true }
    .next ((claims.foldl (fun s k => s.refuse k 4) s).post (.setownerDone b))

/-- SETOWNER_DONE (R125): words are zero and unpoisoned, OWNER is set, REVOKED clear, the bank fallow. -/
def execSetownerDone (bank : Nat) (s : State) : Host.Outcome State Fault Refusal :=
  if !(s.bank bank).clearing then .next s
  else
    let d := coreDie (bankSite bank)
    let owner := (s.die d).bcmd.extractLsb' 41 16
    let s := { s with
      mem := s.mem.filter fun c => !inBank bank c.1
      poison := s.poison.filter fun c => !inBank bank c.1
      wrong := s.wrong.filter fun c => !inBank bank c.1 }
    let s := s.modBank bank fun k => { k with owner := owner, revoked := false, fallow := true, clearing := false }
    .next (s.bcmdEnd d 0)

/-- BCMD_UNREVOKE (R124). -/
def execBcmdUnrevoke (die : Nat) (value : Dword) (s : State) : Host.Outcome State Fault Refusal :=
  let b := (value.extractLsb' 0 16).toNat
  if !s.bankFree die b then .next (s.bcmdEnd die 2)
  else .next ((s.modBank b fun k => { k with revoked := false }).bcmdEnd die 0)

/-- BCMD_REFUSED (R124): OP 4-7. -/
def execBcmdRefused (die : Nat) (_value : Dword) (s : State) : Host.Outcome State Fault Refusal := .next (s.bcmdEnd die 5)

/-- Bits of a memory may fail in a microsecond (R122, R144; log 61). -/
def State.mayStrike (s : State) : State :=
  match Config.strike s.draws with
  | some (k, n) => (s.drawn 1).strike k n
  | none => s.drawn 1

/-- BANK_MICROSECOND_SAMPLE (R282): each attached bank counts for the account of the launch that holds its core. -/
def execBankMicrosecondSample (s : State) : Host.Outcome State Fault Refusal :=
  let s := s.mayStrike
  .next (s.banks.foldl (fun s e =>
    if !e.2.att then s
    else match s.loadedOn (e.2.core.getD (bankSite e.1)) with
      | none => s
      | some n => match (s.tst n).desc with
        | some d => s.charge d.acct.toNat 7 1
        | none => s) s)

end Sys2Proof.Machine
end

