-- ==== Sys2Proof/Machine/Control.lean ====
section
/-! DEFINITION. Prefix words, control flow, repeat frames and words that are no instruction (R41, R50, R52, R59-R62, R75,
R81, R83, R219, R312, R313, R331, R332, R334, R342, R352, R354, R368, R369). -/
namespace Sys2Proof.Machine

/-! Prefix words. -/

/-- PREFIX (R50-R52, R61, R64): it stays pending for the next word, at its own issue position (log 19). In a stream its word
stays in the buffer until its instruction has executed. -/
def execPfx (rlx sat : Bool) (rm : Rm) (s : State) : Host.Outcome State Fault Refusal :=
  let r := s.cur
  let s := s.chargeIssue r
  let x := s.slot r
  if x.pre.isSome then
    match x.capturing with
    | some f => .next (s.frameArrive r f (.pfx rlx sat rm))
    | none => .next (s.takeTrap r { cause := cORPH })
  else
    let p : Pre := { addr := x.at, rlx := rlx, sat := sat, rm := rm }
    .next (s.setSlot r { x with pc := if x.streamed || x.rpt.isSome then x.pc else x.pc + 4, pre := some p })

/-! Words that are no instruction. -/

/-- NOT_AN_INSTRUCTION (R39, R41, R58): ILL, or ORPH for a prefix after a prefix; a frame that is captured takes the word in
and fails when it is whole (R60, R62). -/
def execNotAnInstruction (w : Word) (why : BadWord) (s : State) : Host.Outcome State Fault Refusal :=
  let r := s.cur
  let s := s.chargeIssue r
  let x := s.slot r
  match x.capturing with
  | some f => .next (s.frameArrive r f (.notAnInstruction w why))
  | none => .next (s.takeTrap r { cause := if why = .secondPrefix then cORPH else cILL })

/-- STREAM_IMAGE_END_MARKER (R83): SEGV at the instruction the marker stands for, with the first offset beyond the
image. -/
def execStreamImageEndMarker (beyond : BitVec 32) (s : State) : Host.Outcome State Fault Refusal :=
  let r := s.cur
  .next (s.takeTrap r { cause := cSEGV, taddr := beyond.zeroExtend 64 })

/-! Branches, jumps, calls. -/

/-- What a follower of a streamed row learns of a control word: the lead's decision, when the word carries it (R81); none
for a slot that decides itself. -/
def followed (x : Slot) (p : Place) : Option (Option Decision) :=
  if x.streamed && !leads x p then some (match x.buf with | w :: _ => w.dec | [] => none) else none

/-- Address of the word after a control word of n words. -/
def Slot.after (x : Slot) (n : Nat) : BitVec 16 := x.pc + BitVec.ofNat 16 (4 * n)

/-- A control word without register effects. -/
def branchTo (r : SlotRef) (x : Slot) (s : State) (n : Nat) (cond : Bool) (target : BitVec 16) : Res :=
  match followed x r.place with
  | some none => .park s .emptyStream
  | some (some d) => .jump s d.taken d.target
  | none => .jump s cond (if cond then target else x.after n)

/-- BR (R312). -/
def execBr (q : R4) (disp : BitVec 19) (s : State) : Host.Outcome State Fault Refusal :=
  issue (.br q disp) q s fun r x s => branchTo r x s 1 (x.getQ q) (x.pc + BitVec.ofInt 16 (4 * disp.toInt))

/-- JMP (R331): relative to word0. -/
def execJmp (q : R4) (disp : Word) (s : State) : Host.Outcome State Fault Refusal :=
  issue (.jmp q disp) q s fun r x s => branchTo r x s 2 (x.getQ q) (x.pc + BitVec.ofInt 16 (4 * disp.toInt))

/-- A jump target that JMPR and RET refuse (R332, R352). -/
def badTarget (t : Dword) : Bool := t.extractLsb' 16 48 != 0 || t.extractLsb' 0 2 != 0

/-- JMPR (R332). -/
def execJmpr (q : R4) (a : R4) (s : State) : Host.Outcome State Fault Refusal :=
  issue (.jmpr q a) q s fun r x s =>
    match followed x r.place with
    | some _ => branchTo r x s 1 false 0
    | none =>
      if x.getQ q && badTarget (x.getG a) then trapOf cILL
      else branchTo r x s 1 (x.getQ q) ((x.getG a).extractLsb' 0 16)

/-- LOOP (R334): every core decrements its own counter; the lead's decides. -/
def execLoop (q : R4) (disp : BitVec 15) (c : R4) (s : State) : Host.Outcome State Fault Refusal :=
  issue (.loop q disp c) q s fun r x s =>
    let y := x.setG c (x.getG c - 1)
    match followed x r.place with
    | some none => .park s .emptyStream
    | _ => branchTo r x (s.setSlot r y) 1 (y.getG c != 0 && x.getQ q) (x.pc + BitVec.ofInt 16 (4 * disp.toInt))

/-- The current window. -/
def Slot.window (x : Slot) : List Dword := [8, 9, 10, 11, 12, 13, 14, 15].map fun n => x.getG (BitVec.ofNat 4 n)
/-- Setting registers from number n on. -/
def Slot.putWindow (x : Slot) : Nat → List Dword → Slot
  | _, [] => x
  | n, v :: t => (x.setG (BitVec.ofNat 4 n) v).putWindow (n + 1) t
/-- Rotating to a new window (R75, R313). -/
def Slot.newWindow (x : Slot) (ret : BitVec 16) : Slot :=
  { (x.putWindow 8 [0, 0, 0, 0, 0, 0, 0, ret.zeroExtend 64]) with frames := x.window :: x.frames, depth := x.depth + 1 }
/-- Whether all four resident frames are in use (R75). -/
def Slot.framesFull (x : Slot) : Bool := 3 ≤ x.frames.length
/-- Whether WLIM blocks a spill (R75); a method's stack holds eight frames, up to the end of the core store in slot 7 (R219). -/
def Slot.spillBlocked (x : Slot) : Bool :=
  match x.method with
  | some _ => 8 ≤ x.spilled
  | none => x.wlim.toNat < x.wsp.toNat + 64

/-- A window spill or fill is queued for an idle issue position of the core (R66). -/
def State.background (s : State) (r : SlotRef) (e : Instr) : State :=
  s.modSite (placeKey r.place) fun y => { y with bg := if y.bg.contains e then y.bg else y.bg ++ [e] }

/-- The register effects of a taken CALL (R75, R313). -/
def callWindow (r : SlotRef) (x : Slot) (s : State) (k : State → Res) : Res :=
  if x.framesFull then
    if x.spillBlocked then trapOf cSTKO (x.wsp.zeroExtend 64)
    else .park (s.background r (.windowSpill r)) .callFrame
  else
    let y := x.newWindow (x.after 1)
    let s := s.setSlot r y
    k (if y.framesFull && !y.spillBlocked then s.background r (.windowSpill r) else s)

/-- CALL (R313). -/
def execCall (q : R4) (disp : BitVec 19) (s : State) : Host.Outcome State Fault Refusal :=
  issue (.call q disp) q s fun r x s =>
    match followed x r.place with
    | some none => .park s .emptyStream
    | some (some d) => if d.taken then callWindow r x s fun s => .jump s true d.target else .jump s false d.target
    | none =>
      if x.getQ q then callWindow r x s fun s => .jump s true (x.pc + BitVec.ofInt 16 (4 * disp.toInt))
      else .jump s false (x.after 1)

/-- Rotating back to the caller's window, which parks while it is filled (R75, R352). -/
def retWindow (r : SlotRef) (x : Slot) (s : State) (k : State → Res) : Res :=
  match x.frames with
  | f :: rest => k (s.setSlot r { (x.putWindow 8 f) with frames := rest, depth := x.depth - 1 })
  | [] =>
    if x.spilled = 0 then k (s.setSlot r { x with depth := x.depth - 1 })
    else .park (s.background r (.windowFill r)) .retFrame

/-- Whether a carousel's slot 0 may commit: no read is under way (R221). -/
def State.readsIdle (s : State) (d : Nat) : Bool :=
  (List.range 7).all fun k => (s.slot { place := .carousel d, k := k + 1 }).status == Status.free

/-- The RET that brings a method's depth to 0 ends it (R219-R221). -/
def endMethod (r : SlotRef) (s : State) : Res :=
  match r.place with
  | .carousel d =>
    let obj := match (s.slot r).method with | some m => m.obj | none => 0
    if r.k = 0 && !s.readsIdle d then .park s (.read d obj) else .ended (s.methodEnd r none)
  | _ => .done s

/-- RET (R352). -/
def execRet (q : R4) (s : State) : Host.Outcome State Fault Refusal :=
  issue (.ret q) q s fun r x s =>
    match followed x r.place with
    | some none => .park s .emptyStream
    | some (some d) => if d.taken then retWindow r x s fun s => .jump s true d.target else .jump s false d.target
    | none =>
      if !x.getQ q then .jump s false (x.after 1)
      else
        let t := x.getG 15
        if x.depth = 0 then trapOf cILL
        else if badTarget t then trapOf cILL
        else if x.method.isSome && x.depth = 1 then endMethod r s
        else retWindow r x s fun s => .jump s true (t.extractLsb' 0 16)

/-- NOP (R342). -/
def execNop (q : R4) (s : State) : Host.Outcome State Fault Refusal := issue (.nop q) q s fun _ _ s => .done s

/-- TRAP (R368). -/
def execTrap (q : R4) (code : BitVec 11) (s : State) : Host.Outcome State Fault Refusal :=
  issue (.trap q code) q s fun _ _ _ => .trap { cause := cSWT, code := code.toNat }

/-- TRET (R262, R369): ILL outside a handler, so in every streamed slot. -/
def execTret (q : R4) (s : State) : Host.Outcome State Fault Refusal :=
  issue (.tret q) q s fun r x s =>
    if x.streamed || !inhBit x.tinfo then trapOf cILL
    else
      let y := x.tret (isCtl r.place)
      .jump (s.setSlot r y) true y.pc

/-! Far code (R290). -/

/-- What reading a far word answers: the state in which it stands in its slot, a trap, or the park for another device. -/
inductive FarFetch where
  | got (s : State)
  | trap (t : TrapInfo)
  | park (s : State) (p : Park)

/-- A far word enters its slot. -/
def State.farWord (s : State) (r : SlotRef) (off : Dword) (bs : List Byte) : State :=
  s.modSlot r fun x => { x with far := x.far ++ [(off, BitVec.ofNat 32 (ofLe bs))] }

/-- Reading a far word, as a load of 4 bytes (R21, R290). -/
def State.readFar (s : State) (r : SlotRef) (off : Dword) (p : Spot) (va : Dword) : FarFetch :=
  match p with
  | .run key tag =>
    let pc : Piece := { pos := 0, key := key, n := 4, tag := tag }
    if s.piecePoisoned pc then .trap { cause := cPOIS, taddr := va }
    else .got (((s.drawPieces [pc]).accessed r 0 false false [pc]).farWord r off (s.readOn (dieOf r.place) pc))
  | .mmio pa => let (bs, s) := (s.mmioTraffic r pa 0 4).mmioRead pa 4; .got (s.farWord r off bs)
  | .remote dev va =>
    let q : Request :=
      { id := s.fresh, group := s.fresh, slot := r, tepc := (s.slot r).at, words := 0, addr := va, pos := 0, n := 4, got := none, what := .fetch off }
    match s.bump.ask q dev 1 0 0 (s.acctOf r) 4 [] with
    | some s' => .park s' (.remote s.fresh)
    | none => .trap { cause := cRWR, taddr := va, reason := 2 }
  | _ => .trap { cause := cSEGV, taddr := va }

/-! Repeat frames. -/

/-- A word of a frame read in local mode, and the address after it. -/
inductive FrameRead where
  | word (w : FrameWord) (next : BitVec 16)
  | trap (t : TrapInfo)
  | park (p : Park)
  | far (off : Dword) (p : Spot) (va : Dword)

/-- Reading one frame word with its prefix (R59). -/
def State.readFrameWord (s : State) (r : SlotRef) (pc : BitVec 16) : FrameRead :=
  match s.fetchLocal r pc false with
  | .trap t _ => .trap t
  | .park p => .park p
  | .far o p va => .far o p va
  | .ins (.pfx rlx sat rm) _ =>
    match s.fetchLocal r (pc + 4) true with
    | .trap t _ => .trap t
    | .park p => .park p
    | .far o p va => .far o p va
    | .ins i _ =>
      .word { addr := pc, pre := some { addr := pc, rlx := rlx, sat := sat, rm := rm }, ins := i } (pc + 4 + BitVec.ofNat 16 (4 * wordsOf i))
  | .ins i _ => .word { addr := pc, pre := none, ins := i } (pc + BitVec.ofNat 16 (4 * wordsOf i))

/-- What capturing a frame in local mode answers. -/
inductive Capture where
  | words (ws : List FrameWord) (next : BitVec 16)
  | trap (t : TrapInfo) (at_ : BitVec 16)
  | park (p : Park)
  | far (off : Dword) (p : Spot) (va : Dword) (at_ : BitVec 16)

/-- Capturing n words (R60): it stops at the first that is no instruction of a frame. -/
def State.capture (s : State) (r : SlotRef) : Nat → BitVec 16 → Capture
  | 0, pc => .words [] pc
  | n + 1, pc =>
    match s.readFrameWord r pc with
    | .trap t => .trap t pc
    | .park p => .park p
    | .far o p va => .far o p va pc
    | .word w next =>
      if !frameWordOk w then .words [w] next
      else match s.capture r n next with
        | .words ws last => .words (w :: ws) last
        | .trap t a => .trap t a
        | .park p => .park p
        | .far o p va a => .far o p va a

/-- Capturing a frame in local mode; far words are read first (R60, R290). -/
def State.captureFrame (s : State) (r : SlotRef) (f : Rpt) (pc : BitVec 16) : Nat → Res
  | 0 => .done s
  | more + 1 =>
    let trap (a : BitVec 16) (t : TrapInfo) : Res := .trapIn (s.modSlot r fun x => { x with pc := a }) t
    match s.capture r f.missing pc with
    | .park p => .park s p
    | .trap t a => trap a t
    | .far o p va a => match s.readFar r o p va with
      | .got s => s.captureFrame r f pc more
      | .trap t => trap a t
      | .park s p => .park s p
    | .words ws next =>
      .ended ((s.modSlot r fun x => { x with pc := next, since := 0, stage := .fresh }).frameStart r { f with words := ws })

/-- RPT (R59-R62, R354). In streamed mode the frame words come from the stream; a core whose guard is false holds the n
words back until its single pass is complete. -/
def execRpt (q : R4) (vstep : BitVec 3) (count : Byte) (n : R4) (s : State) : Host.Outcome State Fault Refusal :=
  issue (.rpt q vstep count n) q s fun r x s =>
    let f : Rpt := { words := [], missing := n.toNat + 1, count := count.toNat + 1, vstep := vstep.toNat, j := 0, idx := 0 }
    if x.streamed then
      let hold := if x.getQ q then (if x.hold = 0 then 2 else x.hold + 1) else Nat.max x.hold (n.toNat + 2)
      let y := ({ x with hold := hold } : Slot).advance (x.onEast r.place) 1 none
      .ended (s.setSlot r { y with rpt := if x.getQ q then some f else none })
    else s.captureFrame r f (x.pc + 4) 49

/-! Window stack (R66, R75). -/

/-- WINDOW_SPILL (R75): the oldest frame goes to the stack when four are in use and WLIM lets it. -/
def execWindowSpill (r : SlotRef) (s : State) : Host.Outcome State Fault Refusal :=
  let x := s.slot r
  match x.frames.getLast? with
  | none => .next s
  | some f =>
    if x.framesFull && !x.spillBlocked then
      let s := s.setBytes (storeKey (placeKey r.place) x.wsp.toNat) (f.flatMap fun v => leBytes 8 v.toNat)
      .next (s.setSlot r { x with frames := x.frames.dropLast, spilled := x.spilled + 1, wsp := x.wsp + 64 })
    else .next s

/-- WINDOW_FILL (R75): the caller's frame comes back from the stack. -/
def execWindowFill (r : SlotRef) (s : State) : Host.Outcome State Fault Refusal :=
  let x := s.slot r
  if x.frames = [] ∧ x.spilled ≠ 0 then
    let a := x.wsp - 64
    let f := (List.range 8).map fun i => BitVec.ofNat 64 (s.num (storeKey (placeKey r.place) (a.toNat + 8 * i)) 8)
    .next (s.setSlot r { x with frames := [f], spilled := x.spilled - 1, wsp := a })
  else .next s

end Sys2Proof.Machine
end

