-- ==== Sys2Proof/Machine/Translation.lean ====
section
/-! DEFINITION. Page tables, the walker, TLBI and migration (R132-R137, R139, R140, R142, R143, R367). -/
namespace Sys2Proof.Machine

/-! The walk (R132-R135). -/

/-- What a walk answers: the leaf, a fault that parks, or SEGV. -/
inductive Walked where
  | leaf (e : Dword)
  | fault (k : FaultKind)
  | segv
  deriving DecidableEq, Repr

/-- First VA bit and index bits of a level. -/
def levelShift : Nat → Nat
  | 0 => 39 | 1 => 29 | 2 => 21 | _ => 16
/-- Entries of a table at a level. -/
def levelEntries : Nat → Nat
  | 0 => 512 | 1 => 1024 | 2 => 256 | _ => 32
/-- SIZE of a leaf at a level; L0 has none. -/
def levelLeaf : Nat → Option Nat
  | 0 => none | 1 => some 3 | 2 => some 2 | _ => some 1

/-- A table entry that is malformed: more than V and FRAME, or a frame beyond DRAM (R133, R135). -/
def tableBad (e : Dword) : Bool := e.extractLsb' 1 31 != 0 || dramTop ≤ leafBase e

/-- A leaf that raises SEGV (R135 step 4). -/
def State.leafBad (s : State) (owner : Nat) (e : Dword) : Bool :=
  let size := 2 ^ leafShift e
  let past := leafBase e + size
  e.extractLsb' 10 6 != 0 || e.extractLsb' 27 5 != 0 || leafBase e % size != 0 || leafPlace e == 3 ||
  (leafPlace e == 0 && dramTop < past) || (leafPlace e != 0 && 0x003000000000 < past) ||
  tget 0 s.keys (leafKey e) != owner + 1

/-- Reading the tables from a level on; the levels left bound the walk. -/
def State.walkFrom (s : State) (owner va : Nat) (acc : Acc) : Nat → Nat → Nat → Walked
  | 0, _, _ => .segv
  | left + 1, level, table =>
    let e := BitVec.ofNat 64 (s.physNum (table + 8 * (va / 2 ^ levelShift level % levelEntries level)) 8)
    if !e.getLsbD 0 then .fault .miss
    else if leafSize e = 0 then
      if level = 3 ∨ tableBad e then .segv else s.walkFrom owner va acc left (level + 1) (leafBase e)
    else if !leafRights e acc then .fault .rights
    else if levelLeaf level ≠ some (leafSize e) then .segv
    else if s.leafBad owner e then .segv
    else .leaf e

/-- A walk of a die for an owner (R135). -/
def State.walk (s : State) (d owner va : Nat) (acc : Acc) : Walked :=
  let root := (List.range 64).find? fun i =>
    let e := tget 0 (s.die d).oroot i
    e.getLsbD 16 && (e.extractLsb' 0 16).toNat == owner
  match root with
  | none => .fault .noroot
  | some i =>
    let table := ((tget 0 (s.die d).oroot i).extractLsb' 32 32).toNat * 2 ^ 16
    if dramTop ≤ table then .segv else s.walkFrom owner va acc 4 0 table

/-- Physical addresses of the entries that a walk reads from a level on (R135). -/
def State.walkReads (s : State) (va : Nat) : Nat → Nat → Nat → List Nat
  | 0, _, _ => []
  | left + 1, level, table =>
    let pa := table + 8 * (va / 2 ^ levelShift level % levelEntries level)
    let e := BitVec.ofNat 64 (s.physNum pa 8)
    pa :: (if !e.getLsbD 0 || leafSize e != 0 || level == 3 || tableBad e then [] else s.walkReads va left (level + 1) (leafBase e))

/-- The reads of a walk are the part's own work (R282), and travel between the die and the memory dies (R271, log 16). -/
def State.walked (s : State) (d owner va : Nat) : State :=
  match (List.range 64).find? fun i => let e := tget 0 (s.die d).oroot i
    e.getLsbD 16 && (e.extractLsb' 0 16).toNat == owner with
  | none => s
  | some i =>
    let table := ((tget 0 (s.die d).oroot i).extractLsb' 32 32).toNat * 2 ^ 16
    if dramTop ≤ table then s
    else (s.walkReads va 4 0 table).foldl (fun s pa =>
      (s.chargeLines false pa 8).exchange (gate d) (memNode (hashKey pa / 2 ^ 38)) 2 0 8) s

/-- A leaf enters the TLB; a full TLB gives up an entry of free choice (log 11). -/
def State.fillTlb (s : State) (d owner va : Nat) (leaf : Dword) : State :=
  let e : TlbEntry := { owner := owner, page := va / 2 ^ leafShift leaf, leaf := leaf }
  let full := 4096 ≤ (s.die d).tlb.length
  let victim := Config.freeNat s.draws % 4096
  let s := if full then s.drawn 1 else s
  s.modDie d fun x => { x with tlb := (if full then x.tlb.eraseIdx victim else x.tlb) ++ [e] }

/-- Pages that a packet or a row of MSTO used enter the TLB (R135). -/
def State.touch (s : State) (d owner : Nat) (acc : Acc) (vas : List Nat) : State :=
  vas.foldl (fun s va =>
    if ((s.die d).lookup owner va).isSome then s
    else match s.walk d owner va acc with
      | .leaf e => (s.walked d owner va).fillTlb d owner va e
      | _ => s) s

/-- TLB_WALK (R135, R139): the walk ends in the TLB, in a reported fault, or in SEGV. -/
def execTlbWalk (die owner va : Nat) (r : SlotRef) (s : State) : Host.Outcome State Fault Refusal :=
  match (s.slot r).status with
  | .parked (.tlb va' acc) =>
    if va' ≠ va then .next s
    else
      let w := s.walk die owner va acc
      let s := s.walked die owner va
      match w with
      | .leaf e => .next ((s.fillTlb die owner va e).modSlot r fun x => { x with status := .ready })
      | .fault k => .next (s.parkOn r (.fault va acc k))
      | .segv => .next (s.modSlot r fun x =>
          { x with status := .ready, stage := if acc = .fetch then .fetchFailed va else .failed va })
  | _ => .next s

/-! Invalidation (R136, R142, R367). -/

/-- Whether a TLB entry falls under a TLBI. -/
def tlbiHits (scope : TlbScope) (owner va : Nat) (e : TlbEntry) : Bool :=
  match scope with
  | .all => true
  | .owner => e.owner == owner
  | .page => e.owner == owner && e.page == va / 2 ^ leafShift e.leaf

/-- Removing entries from a die's TLB. -/
def State.invalidate (s : State) (d : Nat) (scope : TlbScope) (owner va : Nat) : State :=
  s.modDie d fun x => { x with tlb := x.tlb.filter fun e => !tlbiHits scope owner va e }

/-- Whether a slot has an access to DRAM under way that used a translation: a relaxed access, or an LRW or atomic that waits for its
word or goes on with the bytes it was granted (R207, R367). -/
def Slot.translated (x : Slot) : Bool :=
  x.relaxed.any (fun a => a.pieces.any fun p => isDram p.key) ||
  match x.resv with
  | some v => isDram v.key && (!v.held || v.atomic || (match x.stage with | .granted _ => true | _ => false))
  | none => false

/-- Whether accesses of a die that used a translation may be under way: those of its slots and queued
stores; other accesses and copy packets translate and perform in one step. -/
def State.dieBusy (s : State) (d : Nat) : Bool :=
  (s.slots.any fun e => e.2.translated &&
    (e.1 / 8 / 1024 == d || (8192 + 8 * (d + 1) ≤ e.1 / 8 && e.1 / 8 < 8192 + 8 * (d + 2)))) ||
  !(s.die d).egress.isEmpty

/-- A TLBI goes to every die (R136). -/
def State.tlbiGo (s : State) (by_ : Option SlotRef) (scope : TlbScope) (v : Dword) : State :=
  let t : Tlbi :=
    { id := s.fresh, slot := by_, scope := scope, owner := (v.extractLsb' 48 16).toNat, va := (v.extractLsb' 16 32).toNat * 2 ^ 16, dies := List.range 8 }
  (s.bump.modIod fun d => { d with tlbis := d.tlbis ++ [t] }).posts ((List.range 8).map fun d => .tlbiDieAck d s.fresh)

/-- TLBI (R136, R367). -/
def execTlbi (q : R4) (scope : TlbScope) (a : R4) (s : State) : Host.Outcome State Fault Refusal :=
  issue (.tlbi q scope a) q s fun r x s =>
    match x.stage with
    | .acked _ => .done s
    | _ => .park (s.tlbiGo (some r) scope (x.getG a)) (.tlbi s.fresh)

/-- A TLBI is done: its slot or its host goes on. -/
def State.tlbiDone (s : State) (t : Tlbi) : State :=
  let s := s.modIod fun d => { d with tlbis := d.tlbis.filter fun u => u.id ≠ t.id }
  let s := match s.iod.hostWaits.find? fun w => w.what == .tlbi t.id with
    | some w => s.hostDone w false
    | none => s
  match t.slot with
  | some r =>
    if (s.slot r).status = Status.parked (.tlbi t.id) then s.modSlot r fun x => { x with status := .ready, stage := .acked true } else s
  | none => s

/-- TLBI_DIE_ACK (R136): the die has removed every matching entry, and the accesses that used one have completed. The
last acknowledgement ends the issuer's park. -/
def execTlbiDieAck (die id : Nat) (s : State) : Host.Outcome State Fault Refusal :=
  match s.iod.tlbis.find? fun t => t.id == id with
  | none => .next s
  | some t =>
    let s := s.invalidate die t.scope t.owner t.va
    if s.dieBusy die then .next (s.post (.tlbiDieAck die id))
    else
      let left := t.dies.filter (· ≠ die)
      if left = [] then .next (s.tlbiDone t)
      else .next (s.modIod fun d => { d with tlbis := d.tlbis.map fun u => if u.id = id then { u with dies := left } else u })

/-! Waking (R141, R385). -/

/-- The slots whose id has these low 16 bits: a mesh slot and a control-core slot. -/
def slotsById (id : Nat) : List SlotRef :=
  [slotOfId id, { place := .ctl (id / 8 % 2 ^ 10) (id % 8), k := id / 2 ^ 13 % 8 }]

/-- The lead's barker waits for a page: WAKE lets it fetch again, or the lead raises SEGV when it reaches the word (R83, R141). -/
def State.wakeBarker (s : State) (c k : Nat) (fail : Bool) : State :=
  let d := coreDie c
  let key := barkerKey c k
  let b := tget {} (s.die d).barkers key
  match b.stall with
  | some (.fault va _ _) =>
    let r := meshSlot c k
    if !(s.slot r).streamed || !leads (s.slot r) r.place then s
    else if fail then
      let b' : Barker := { b with stall := none, stopped := true, sent := b.sent ++ [{ off := b.next, w := 0, fail := some va }] }
      s.modDie d fun y => { y with barkers := tset {} y.barkers key b' }
    else (s.modDie d fun y => { y with barkers := tset {} y.barkers key { b with stall := none } }).post (.barkerFetch d (coreRow c) k)
  | _ => s

/-- WAKE for a slot, of any die or of that at a socket. -/
def State.wakeSlot (s : State) (sock : Option Nat) (id : Nat) (fail : Bool) : State :=
  let here (r : SlotRef) : Bool := sock.all fun k => socketOf r.place == k
  let s := ((slotsById id).filter here).foldl (fun s r =>
    match (s.slot r).status with
    | .parked (.fault va acc _) =>
      if fail then s.modSlot r fun x => { x with status := .ready, stage := if acc = .fetch then .fetchFailed va else .failed va }
      else s.modSlot r fun x => { x with status := .ready }
    | _ => s) s
  if here (slotOfId id) then s.wakeBarker (id % 2 ^ 13) (id / 2 ^ 13 % 8) fail else s

/-! Migration (R143). -/

/-- Copies of a DUP page, by die; one for the other placements. -/
def leafDies (e : Dword) : List Nat := if leafPlace e = 2 then List.range 8 else [leafNear e]

/-- Piece of line i of a page, on the copy of a die. -/
def leafLine (e : Dword) (d i : Nat) : Piece :=
  let pa := leafBase e + 64 * i
  { pos := 0, key := placeByte (leafPlace e) (leafNear e) d pa, n := 64, tag := dramTag (leafKey e) pa }

/-- Copying line i of a page, with its poison mark; it travels from die to die in class 2 (log 16). -/
def State.moveLine (s : State) (old new : Dword) (i : Nat) : State :=
  let p := leafLine old (leafNear old) i
  let bs := s.readPiece p
  let bad := s.piecePoisoned p
  let s := (s.drawPieces [p]).charge 0 2 64
  (leafDies new).foldl (fun s d =>
    let t := leafLine new d i
    let s := s.transit (memNode (p.key / 2 ^ 38)) (memNode (t.key / 2 ^ 38)) 2 64
    ((s.writePiece t bs).setPoison t.key bad).charge 0 3 64) s

/-- Lines of a page. -/
def leafLines (e : Dword) : Nat := 2 ^ leafShift e / 64

/-- Whether an entry is a leaf that its owner may use. -/
def State.goodLeaf (s : State) (owner : Nat) (e : Dword) : Bool := e.getLsbD 0 && leafSize e != 0 && !s.leafBad owner e

/-- Every die loses its translation of a page (R143). -/
def State.dropLeaf (s : State) (owner : Nat) (old : Dword) : State :=
  (List.range 8).foldl (fun s d =>
    s.modDie d fun x => { x with tlb := x.tlb.filter fun e => !(e.owner == owner && leafBase e.leaf == leafBase old && leafSize e.leaf == leafSize old) }) s

/-- MIGRATION_GO (R143 step 1): MIG is set in the entry and every die loses its translation. A command block or an entry that does
not lie in DRAM counts as a copy fault (R21, log 29). -/
def execMigrationGo (md : Nat) (value : Dword) (s : State) : Host.Outcome State Fault Refusal :=
  let block := (value.extractLsb' 6 42).toNat * 64
  let pa := s.physNum block 8
  if !inDram block 24 then .next (s.modMd md fun x => { x with status := 3 })
  else if !inDram pa 8 then .next ((s.ownLines (memNode md) false block 24).modMd md fun x => { x with status := 3 })
  else
  let new := BitVec.ofNat 64 (s.physNum (block + 8) 8)
  let owner := s.physNum (block + 16) 8 % 2 ^ 16
  let old := BitVec.ofNat 64 (s.physNum pa 8)
  let s := ((s.ownLines (memNode md) false block 24).ownLines (memNode md) false pa 8).physWrite (memNode md) 0 pa (leBytes 8 (old ||| 0x100).toNat)
  let s := s.dropLeaf owner old
  .next ((s.modMd md fun x => { x with status := 1, job := some (pa, old, new, owner) }).post (.migrationEnd md))

/-- Accessors parked on a migrating page of an owner go on (R143 step 4). -/
def State.wakeMigrating (s : State) (owner : Nat) : State :=
  let s := s.slots.foldl (fun s e =>
    match e.2.status with
    | .parked (.migrating _ _) =>
      if e.2.owner.toNat = owner then { s with slots := tset {} s.slots e.1 { e.2 with status := .ready } } else s
    | _ => s) s
  (List.range 8).foldl (fun s d =>
    (s.die d).barkers.foldl (fun s e =>
      match e.2.stall with
      | some (.migrating _ _) =>
        (s.modDie d fun x => { x with barkers := tset {} x.barkers e.1 { e.2 with stall := none } }).post (.barkerFetch d (e.1 / 8) (e.1 % 8))
      | _ => s) s) s

/-- MIGRATION_END (R143 steps 2-4): the page is copied, the new entry written and the page invalidated again, the accessors
woken; or the migration is abandoned. Entries that are no usable leaves of one size count as a copy fault (log 29). -/
def execMigrationEnd (md : Nat) (s : State) : Host.Outcome State Fault Refusal :=
  match (s.md md).job with
  | none => .next s
  | some (pa, old, new, owner) =>
    if (List.range 8).any s.dieBusy then .next (s.post (.migrationEnd md))
    else
      let ends (st : Nat) (e : Dword) (s : State) : State :=
        let s := (s.physWrite (memNode md) 0 pa (leBytes 8 e.toNat)).dropLeaf owner old
        let s := (s.modMd md fun x => { x with status := st, job := none }).wakeMigrating owner
        s.duty 0 5 (9 + md) (BitVec.ofNat 64 (9 + md + st * 2 ^ 8)) false
      let plain := old &&& ~~~0x100
      let poison := (List.range (leafLines old)).any fun i => s.piecePoisoned (leafLine old (leafNear old) i)
      if !s.goodLeaf owner plain || !s.goodLeaf owner new || leafSize old ≠ leafSize new then .next (ends 3 plain s)
      else if poison && !old.getLsbD 9 then .next (ends 4 (plain ||| 0x200) s)
      else .next (ends 2 new ((List.range (leafLines old)).foldl (fun s i => s.moveLine plain new i) s))

end Sys2Proof.Machine
end

