-- ==== Sys2Proof/Machine/Copy.lean ====
section
/-! DEFINITION. Copies (R45, R66, R146-R153, R172, R300, R317-R319, R329, R346, R347) and WAKE (R141, R385). -/
namespace Sys2Proof.Machine

/-! The layout of a transfer (R147). -/

/-- Rounding up to 64. -/
def up64 (n : Nat) : Nat := (n + 63) / 64 * 64
/-- Length of a transfer that is not px8. -/
def shLength (r : BitVec 256) : Nat := shElem r * shCount r
/-- Most bytes a px8 transfer may write (R148). -/
def pxBound (r : BitVec 256) : Nat := up64 (4 * shDim' r 1) + shDim' r 1 * up64 (126 * shDim r 0 / 32)
/-- Far offset of byte t of a transfer, from the far base. -/
def farByte (r : BitVec 256) (t : Nat) : Nat := shElemOff r (t / shElem r) + t % shElem r
/-- Bytes of a px8 directory in the bank. -/
def pxDir (r : BitVec 256) : Nat := up64 (4 * shDim' r 1)
/-- Place in the transfer of row i of a list of rows. -/
def rowPlace (r : BitVec 256) (rows : List PxRow) (i : Nat) : Nat :=
  pxDir r + ((rows.take i).map fun w => up64 w.len).foldl (· + ·) 0

/-- Whether a copy goes out on the fabric. -/
def Copy.away (c : Copy) : Bool := c.kind == .putr || c.kind == .getr
/-- Whether every row of a px8 source is known. -/
def Copy.rowsKnown (c : Copy) : Bool := !shPx c.shape || c.rows.length == shDim' c.shape 1
/-- Bytes of the transfer known so far. -/
def Copy.known (c : Copy) : Nat := if shPx c.shape then rowPlace c.shape c.rows c.rows.length else shLength c.shape

/-- One run of far bytes of a fabric transfer (R347): its place in the transfer, far offset, far bytes, and bytes of the
transfer it accounts for (padding of a px8 row goes with its last run). -/
structure Run where
  pos : Nat
  off : Nat
  n : Nat
  span : Nat
  deriving DecidableEq, Repr

/-- Runs of consecutive far bytes of at most 512 that cross no 512-byte boundary of the remote address; the list is
newest first. -/
def addRun (base : Nat) (rs : List Run) (pos off : Nat) : List Run :=
  match rs with
  | w :: t => if w.off + w.n = off ∧ (base + off) % 512 ≠ 0 then { w with n := w.n + 1, span := w.span + 1 } :: t
    else { pos := pos, off := off, n := 1, span := 1 } :: rs
  | [] => [{ pos := pos, off := off, n := 1, span := 1 }]

/-- The runs of a fabric transfer; the last of a px8 one is its directory, which the I/O die writes itself. -/
def Copy.runs (c : Copy) : List Run :=
  let base := segBase c.seg + c.far.toNat
  if shPx c.shape then
    ((List.range c.rows.length).flatMap fun i =>
      match c.rows[i]? with
      | none => []
      | some w =>
        let place := rowPlace c.shape c.rows i
        match (List.range w.len).foldl (fun rs k => addRun base rs (place + k) (w.src + k)) [] with
        | l :: t => ({ l with span := l.span + (up64 w.len - w.len) } :: t).reverse
        | [] => []) ++ [{ pos := 0, off := 0, n := 0, span := pxDir c.shape }]
  else ((List.range (shLength c.shape)).foldl (fun rs t => addRun base rs t (farByte c.shape t)) []).reverse

/-- Place and bytes of a packet in the transfer: 64 bytes each on the die (R149), a run on the fabric. -/
def Copy.span (c : Copy) (p : Nat) : Nat × Nat :=
  if c.away then match c.runs[p]? with
    | some w => (w.pos, w.span)
    | none => (0, 0)
  else (64 * p, Nat.min 64 (c.known - 64 * p))

/-- Packets of a copy, in the order the streamer makes them; the directory of a px8 copy comes last. -/
def Copy.order (c : Copy) : List Nat :=
  if c.away then List.range c.runs.length
  else
    let n := (c.known + 63) / 64
    let dir := if shPx c.shape then pxDir c.shape / 64 else 0
    (List.range n).drop dir ++ (if c.rowsKnown then List.range dir else [])

/-- Bytes of the transfer landed in lo .. hi - 1. -/
def Copy.landedIn (c : Copy) (lo hi : Nat) : Nat :=
  (c.landed.map fun p => let (a, n) := c.span p; Nat.min hi (a + n) - Nat.max lo a).foldl (· + ·) 0

/-! State of copies. -/

/-- A copy by its name. -/
def State.copy (s : State) (id : Nat) : Option Copy := s.copies.find? fun c => c.id == id
/-- Changing a copy. -/
def State.modCopy (s : State) (id : Nat) (f : Copy → Copy) : State :=
  { s with copies := s.copies.map fun c => if c.id = id then f c else c }
/-- Core that receives a copy's signals and message (R150). -/
def Copy.signalCore (c : Copy) : Nat := if c.kind = .cpyx then c.farCore else placeKey c.slot.place

/-- Its context there, which the signals and the message are for (R319). -/
def Copy.signalCtx (c : Copy) : Option Nat := if c.kind = .cpyx then c.farCtx else c.ctx

/-- The router of a streamer by its handle (R140, R149). -/
def streamerNode (h : Nat) : Nat :=
  let sock := h / 2 ^ 11
  if sock = 0 then ioNode else if sock ≤ 8 then (sock - 1) * 2 ^ 10 + h % 2 ^ 10 else memNode (sock - 9)

/-- Recording what a streamer sends for a context. -/
def State.streamerSends (s : State) (c : Copy) (core : Nat) (ctx : Option Nat) (kind : SentKind) : State :=
  let e : Sent := { id := s.fresh, slot := c.slot, dst := core, kind := kind, tepc := 0, owner := c.owner, ctx := c.ctx, tgt := ctx }
  { s.bump with sends := s.sends ++ [e] }

/-- A streamer's addition to a semaphore (R150). -/
def State.signal (s : State) (c : Copy) (j : R4) (n : Nat) : State :=
  let op : SemOp := .add n
  (s.streamerSends c c.signalCore c.signalCtx (.signal op j.toNat)).route (streamerNode c.handle) (nodeOfKey c.signalCore) 0 false 16
    (.semaphoreArrival c.signalCore j.toNat op)

/-- A message that a streamer posts to a context on a core. -/
def State.streamerMail (s : State) (c : Copy) (core : Nat) (ctx : Option Nat) (mb : Nat) (m : Message) : State :=
  (s.streamerSends c core ctx (.part mb m)).partMail (streamerNode c.handle) core c.owner mb m

/-- A copy's message (R151): bytes delivered and status. -/
def State.copyMessage (s : State) (c : Copy) (n status : Nat) : State :=
  match c.msg with
  | none => s
  | some m =>
    s.streamerMail c c.signalCore c.signalCtx m.mb.toNat
      { header := BitVec.ofNat 64 (0x06 + (slotId c.slot % 2 ^ 16) * 2 ^ 8 + m.tag.toNat * 2 ^ 24)
        payload := BitVec.ofNat 64 (n + status * 2 ^ 32) }

/-! Far bytes in DRAM. -/

/-- Where a far byte is. -/
inductive FarAt where
  | at (key tag : Nat)
  | fault (k : FaultKind)
  | wait

/-- Translating a far byte for a copy: the TLB, else a walk. SEGV of a walk counts as SEG (log 31). -/
def State.farAt (s : State) (d owner va : Nat) (acc : Acc) : FarAt :=
  let leaf : Walked := match (s.die d).lookup owner va with
    | some e => .leaf e.leaf
    | none => s.walk d owner va acc
  match leaf with
  | .fault k => .fault k
  | .segv => .fault .seg
  | .leaf e =>
    let pa := leafBase e + va % 2 ^ leafShift e
    if e.getLsbD 8 then .wait
    else if !leafRights e acc then .fault .rights
    else if leafPlace e = 2 ∧ acc.writes then .fault .dupw
    else .at (placeByte (leafPlace e) (leafNear e) d pa) (dramTag (leafKey e) pa)

/-- Bytes of a mesh packet that starts with packet p (R267): packets bound for one bank travel four together, those of a px8 directory
by themselves. -/
def Copy.joined (c : Copy) (p : Nat) : Nat :=
  let stop := if shPx c.shape && 64 * p < pxDir c.shape then pxDir c.shape else c.known
  if c.kind = .cpyb then (c.span p).2 else Nat.min (64 * (p / 4 * 4 + 4)) stop - 64 * p

/-- The router of the bank or memory die that a packet of a copy goes to. -/
def State.packetNode (s : State) (c : Copy) (p : Nat) : Nat :=
  match c.kind with
  | .cpyx => bankSite c.farBank
  | .cpyb => match s.farAt ((dieOf c.slot.place).getD 0) c.owner (segBase c.seg + c.far.toNat + farByte c.shape (64 * p)) .copyWrite with
    | .at key _ => memNode (key / 2 ^ 38)
    | _ => streamerNode c.handle
  | _ => bankSite c.bank

/-- Whether a packet lies past the known rows of a px8 source: its row is to be found first. -/
def Copy.unknown (c : Copy) (p : Nat) : Bool := !c.rowsKnown && p == (c.known + 63) / 64

/-- The streamer sends a packet (R149, R267); it first finds the row of one that is not known. -/
def State.copyGo (s : State) (c : Copy) (p : Nat) : State :=
  if c.unknown p then s.post (.copyPacketLand c.id p)
  else s.route (streamerNode c.handle) (s.packetNode c p) 2 false (c.joined p) (.copyPacketLand c.id p)

/-- The packet after one that has landed: joined to it in its mesh packet, or sent. -/
def State.copyOn (s : State) (c : Copy) (landed p : Nat) : State :=
  if c.kind ≠ .cpyb ∧ p = landed + 1 ∧ p % 4 ≠ 0 then s.post (.copyPacketLand c.id p) else s.copyGo c p

/-- The next packet of a copy on the die: the first not landed; past the known rows of a px8 source it finds the next. -/
def Copy.next (c : Copy) : Nat :=
  match c.order.find? fun p => !c.landed.contains p with
  | some p => p
  | none => (c.known + 63) / 64

/-- The other copies of a streamer go on when one that held it up ends or resumes (R152). -/
def State.streamerFree (s : State) (handle : Nat) : State :=
  s.copies.foldl (fun s c =>
    if c.started && c.fault.isNone && (!c.away || c.behind) && c.handle == handle then
      s.post (.copyPacketLand c.id (if c.away then 0 else c.next))
    else s) s

/-- A copy ends (R150, R151). -/
def State.copyEnd (s : State) (c : Copy) (status : Nat) : State :=
  let n := if status = 0 then c.known else c.landedIn 0 c.known
  let s := { s with copies := s.copies.filter fun x => x.id ≠ c.id }
  let s := match c.sig with
    | some g => if status = 0 && g.chunk == 15 then s.signal c g.sm n else s
    | none => s
  (s.copyMessage c n status).streamerFree c.handle

/-- A packet has landed: chunks whose packets have all landed are signalled once (R150), and the copy may end. -/
def State.copyLanded (s : State) (id p : Nat) : State :=
  match s.copy id with
  | none => s
  | some c =>
    let c := { c with landed := if c.landed.contains p then c.landed else c.landed ++ [p] }
    let total := c.known
    let done (size i : Nat) : Bool :=
      let hi := (i + 1) * size
      (hi ≤ total || c.rowsKnown) && c.landedIn (i * size) (Nat.min hi total) == Nat.min hi total - i * size
    let size := match c.sig with
      | some g => if g.chunk = 15 then 0 else 2 ^ (g.chunk.toNat + 8)
      | none => 0
    let fresh := if size = 0 then [] else
      (List.range ((total + size - 1) / size)).filter fun i => !c.signalled.contains i && done size i
    let c := { c with signalled := c.signalled ++ fresh }
    let s := s.modCopy id fun _ => c
    let s := match c.sig with
      | some g => fresh.foldl (fun s i => s.signal c g.sm (Nat.min ((i + 1) * size) total - i * size)) s
      | none => s
    if c.rowsKnown && c.order.all c.landed.contains then s.copyEnd c 0
    else if c.away then s
    else s.copyOn c p c.next

/-- A copy is suspended at a packet, for a fault at a far address and an offset in the transfer (R152). -/
def State.copyStopAt (s : State) (c : Copy) (p : Nat) (k : FaultKind) (va off : Nat) : State :=
  (s.modCopy c.id fun c => { c with fault := some { packet := p, kind := k, va := va, off := off } }).post (.copyFault c.id k.code)

/-- A copy is suspended at a packet, at its offset (R152); a GETR that is still finding the rows of a px8 source at its next row. -/
def State.copyStop (s : State) (c : Copy) (p : Nat) (k : FaultKind) (va : Nat) : State :=
  s.copyStopAt c p k va (if c.away && !c.rowsKnown then c.known else (c.span p).1)

/-! Reading the far side. -/

/-- What reading far bytes answers. -/
inductive FarRead where
  | bytes (bs : List Byte)
  | fault (k : FaultKind) (va : Nat)
  | wait

/-- Far address of an offset. -/
def Copy.farVA (c : Copy) (off : Nat) : Nat := if c.kind = .cpyx then 0 else segBase c.seg + c.far.toNat + off

/-- No valid entry names the device of a fabric transfer: it is suspended at offset 0 (R329, R347). -/
def State.copyNoDevice (s : State) (c : Copy) : State := s.copyStopAt c 0 .remote (c.farVA 0) 0

/-- Reading n far bytes at an offset of a px8 source, checked against the segment and for poison (R130, R144, R148, R152). -/
def State.farRead (s : State) (c : Copy) (off n : Nat) : FarRead :=
  let d := (dieOf c.slot.place).getD 0
  let va := c.farVA off
  if !segOk c.seg (c.far + BitVec.ofNat 64 off) n .copyRead then .fault .seg va
  else
    (List.range n).foldl (fun (r : FarRead) i =>
      match r with
      | .bytes bs =>
        match s.farAt d c.owner (va + i) .copyRead with
        | .at key tag =>
          if s.poisoned key && c.poisonOk != some ((c.known + 63) / 64) then .fault .poison (va + i)
          else .bytes (bs ++ [s.tagByte key tag i])
        | .fault k => .fault k (va + i)
        | .wait => .wait
      | o => o) (.bytes [])

/-- Measuring a px8 row block by block (R147, R170): its length, or what stops it, and the offsets of the words read. -/
def State.rowLength (s : State) (c : Copy) (src : Nat) : Nat → Nat → List Nat → (Nat ⊕ FarRead) × List Nat
  | 0, len, offs => (.inl len, offs)
  | left + 1, len, offs =>
    match s.farRead c (src + len) 4 with
    | .bytes bs => s.rowLength c src left (len + 2 * pxLenOf (bs.map BitVec.toNat)) (offs ++ [src + len])
    | o => (.inr o, offs)

/-- Finding the next row of a px8 source (R148, R172), with the offsets of the words read. -/
def State.findRow (s : State) (c : Copy) : (PxRow ⊕ FarRead) × List Nat :=
  let dir := 4 * c.rows.length * shStride c.shape 1
  match s.farRead c dir 4 with
  | .bytes bs =>
    let src := ofLe bs
    match s.rowLength c src (shDim c.shape 0 / 32) 0 [dir] with
    | (.inl len, offs) =>
      (if segOk c.seg (c.far + BitVec.ofNat 64 src) len .copyRead then .inl { src := src, len := len }
        else .inr (.fault .seg (c.farVA src)), offs)
    | (.inr o, offs) => (.inr o, offs)
  | o => (.inr o, [])

/-! Landing on the die (R149). -/

/-- Source of one byte of a packet. -/
inductive ByteSrc where
  | far (off : Nat) | const (b : Byte)
  deriving DecidableEq, Repr

/-- The bytes of a px8 directory in the bank (R147): offsets of the rows from off. -/
def pxDirByte (r : BitVec 256) (rows : List PxRow) (t : Nat) : Byte :=
  if t / 4 < rows.length then ((leBytes 4 (rowPlace r rows (t / 4)))[t % 4]?).getD 0 else 0

/-- Byte t of a transfer into the bank, as it is made. -/
def Copy.source (c : Copy) (t : Nat) : ByteSrc :=
  if !shPx c.shape then .far (farByte c.shape t)
  else if t < pxDir c.shape then .const (pxDirByte c.shape c.rows t)
  else
    match (List.range c.rows.length).find? fun i => t < rowPlace c.shape c.rows (i + 1) with
    | none => .const 0
    | some i => match c.rows[i]? with
      | none => .const 0
      | some w =>
        let k := t - rowPlace c.shape c.rows i
        if k < w.len then .far (w.src + k) else .const 0

/-- A byte to move: source key and tag (or a constant), destination key and tag. -/
structure Hop where
  from_ : (Nat × Nat) ⊕ Byte
  to_ : Nat × Nat
  deriving DecidableEq, Repr

/-- What resolving a packet answers. -/
inductive PacketAt where
  | hops (hs : List Hop) (vas : List Nat)
  | fault (k : FaultKind) (va : Nat)
  | wait

/-- One byte of a packet, resolved. -/
def State.hopOf (s : State) (c : Copy) (t : Nat) : PacketAt :=
  let d := (dieOf c.slot.place).getD 0
  let near := (bankKey c.bank (c.off + t), 0)
  match c.kind with
  | .cpyx => .hops [{ from_ := .inl near, to_ := (bankKey c.farBank (c.farOff + farByte c.shape t), 0) }] []
  | .cpyb =>
    let a := c.farVA (farByte c.shape t)
    match s.farAt d c.owner a .copyWrite with
    | .at key tag => .hops [{ from_ := .inl near, to_ := (key, tag) }] [a]
    | .fault k => .fault k a
    | .wait => .wait
  | _ =>
    match c.source t with
    | .const b => .hops [{ from_ := .inr b, to_ := near }] []
    | .far off =>
      match s.farAt d c.owner (c.farVA off) .copyRead with
      | .at key tag => .hops [{ from_ := .inl (key, tag), to_ := near }] [c.farVA off]
      | .fault k => .fault k (c.farVA off)
      | .wait => .wait

/-- The bytes of a packet, resolved in order: the first that stops decides. -/
def State.packetAt (s : State) (c : Copy) (p : Nat) : PacketAt :=
  let (pos, n) := c.span p
  (List.range n).foldl (fun (r : PacketAt) i =>
    match r with
    | .hops hs vas => match s.hopOf c (pos + i) with
      | .hops h v => .hops (hs ++ h) (vas ++ v)
      | o => o
    | o => o) (.hops [] [])

/-- Whether a byte to move is poisoned at its source. -/
def State.hopPoisoned (s : State) (h : Hop) : Bool :=
  match h.from_ with
  | .inl (k, _) => s.poisoned k
  | .inr _ => false

/-- Far address of the first byte of a packet that is poisoned at its source (R140). No virtual address faults when
the poison is on the bank side (log 85). -/
def State.poisonVA (s : State) (c : Copy) (p : Nat) (hs : List Hop) : Nat :=
  let t := (c.span p).1 + (hs.findIdx? s.hopPoisoned).getD 0
  match c.kind with
  | .cpyg => (match c.source t with | .far o => c.farVA o | .const _ => c.farVA 0)
  | _ => c.farVA (farByte c.shape t)

/-- Moving the bytes of a packet at once, with the poison marks that pass (R122, R149, R152). -/
def State.moveHops (s : State) (hs : List Hop) : State :=
  let bs := hs.mapIdx fun i h => match h.from_ with
    | .inl (k, tag) => s.tagByte k tag i
    | .inr b => b
  let bad := (hs.filter s.hopPoisoned).map fun h => h.to_.1
  let keys := hs.map fun h => h.to_.1
  let whole := keys.filter fun k => poisonKey k == k && (List.range (if isDram k then 64 else 8)).all fun i => keys.contains (k + i)
  let s := hs.foldl (fun s h => match h.from_ with
    | .inl (k, _) => s.correctRun k 1
    | .inr _ => s) s
  let s := (hs.zip bs).foldl (fun s e =>
    let s := s.setByte e.1.to_.1 e.2
    if e.1.to_.2 = 0 then s else { s with tags := tset 0 s.tags e.1.to_.1 e.1.to_.2 }) s
  let s := whole.foldl (fun s k => (s.setPoison k false).rewriteRun k (if isDram k then 64 else 8)) s
  (bad.foldl (fun s k => s.setPoison k true) s).drawn hs.length

/-- Keys of lines of DRAM among keys. -/
def dramLines (ks : List Nat) : List Nat :=
  (ks.filter isDram).foldl (fun ls k => if ls.contains (k / 64 * 64) then ls else ls ++ [k / 64 * 64]) []

/-- Words that a streamer has read to measure a px8 row (R138, R144, R282): a request and a line for each line they lie in, pages
used enter the TLB, errors are corrected. -/
def State.measured (s : State) (c : Copy) (offs : List Nat) : State :=
  let d := (dieOf c.slot.place).getD 0
  let vas := offs.flatMap fun o => (List.range 4).map fun i => c.farVA o + i
  let keys := vas.filterMap fun va => match s.farAt d c.owner va .copyRead with
    | .at key _ => some key
    | _ => none
  let s := keys.foldl (fun s k => s.correctRun k 1) (s.touch d c.owner .copyRead vas)
  (s.countLines (some d) c.acct true false (dramLines keys)).drawn 4

/-- Counting a packet's DRAM data (R138, R282): one request of the die's port, and the lines for the account. A packet in the lines of two memory dies counts
once, at the first (log 86). -/
def State.countPacket (s : State) (c : Copy) (hs : List Hop) : State :=
  let read := dramLines (hs.filterMap fun h => match h.from_ with | .inl (k, _) => some k | .inr _ => none)
  let written := dramLines (hs.map fun h => h.to_.1)
  let s := (s.countLines none c.acct false false read).countLines none c.acct false true written
  match (read ++ written).head?, dieOf c.slot.place with
  | some k, some d =>
    if k / 2 ^ 38 = d then s.modDie d fun x => { x with portNear := x.portNear + 1 }
    else s.modDie d fun x => { x with portFar := x.portFar + 1 }
  | _, _ => s

/-- Whether an earlier copy of the streamer is suspended: later commands stay queued (R152). -/
def State.heldUp (s : State) (c : Copy) : Bool :=
  s.copies.any fun o => o.id < c.id && o.started && o.fault.isSome && o.handle == c.handle

/-- Bank a copy lands in, if its window's bank has still to leave retention (R300). -/
def State.landWaits (s : State) (c : Copy) : Bool := s.copyLands (some (.copyPacketLand c.id 0))

/-- Whether the context that issued a copy is swapped out: the copy stays suspended until it is restored (R256). -/
def State.copyOut (s : State) (c : Copy) : Bool := match c.ctx with
  | some n => !(s.tst n).isLoaded
  | none => false

/-! Fabric transfers (R329, R346, R347). -/

/-- Bytes of a PUTR run, from the bank. -/
def State.runBytes (s : State) (c : Copy) (w : Run) : List Byte := s.bytes (bankKey c.bank (c.off + w.pos)) w.n

/-- A request of a copy leaves, the data of a PUTR coming from its site; none when no valid entry names the device. -/
def State.askCopy (s : State) (c : Copy) (what : ReqFor) (off n : Nat) (data : List Byte) : Option State :=
  let q : Request :=
    { id := s.fresh, group := s.fresh, slot := c.slot, tepc := 0, words := 0, addr := segAddr c.seg (c.far + BitVec.ofNat 64 off), pos := 0, n := n, got := none, what := what, dev := segDev c.seg, owner := c.owner, acct := c.acct }
  let op := if c.kind = .putr then 5 else 4
  match s.iod.route (segDev c.seg) with
  | none => none
  | some p =>
    let pk : Packet :=
      { dst := segDev c.seg, src := 0, sock := socketOf c.slot.place, cls := 2, owner := c.owner, op := op, tag := q.id % 2 ^ 32, addr := q.addr.toNat % 2 ^ 48, asub := 0, len := n, seq := 0, payload := data }
    let s := if data = [] then s else s.transit (streamerNode c.handle) ioNode 2 data.length
    some ((s.bump.modIod fun d => { d with requests := d.requests ++ [q] }).emit p c.acct pk)

/-- A run of a PUTR whose source is poisoned stops the copy there (R152). -/
def State.runPoisoned (s : State) (c : Copy) (w : Run) : Bool :=
  c.kind == .putr && s.piecePoisoned { pos := 0, key := bankKey c.bank (c.off + w.pos), n := w.n, tag := 0 }

/-- Places of a run of n bytes, from offset o of a bank on, in packets that each lie in one 64-byte line of it: place in the run, and
length. -/
def lineCuts (o n : Nat) : List (Nat × Nat) :=
  (List.range ((o % 64 + n + 63) / 64)).map fun i =>
    let lo := 64 * i - o % 64
    (lo, Nat.min n (64 * (i + 1) - o % 64) - lo)

/-- Bytes of a run travel from the I/O die to the bank (R271, R300, R347), each packet with its landing as its event. -/
def State.bringRun (s : State) (c : Copy) (i : Nat) (w : Run) (data : List Byte) : State :=
  (lineCuts (c.off + w.pos) data.length).foldl (fun s e =>
    let d : Inbound := { id := s.fresh, run := i, pos := e.1, data := (data.drop e.1).take e.2 }
    (s.bump.modCopy c.id fun c => { c with inbound := c.inbound ++ [d] }).route ioNode (bankSite c.bank) 2 false e.2 (.copyPacketLand c.id d.id)) s

/-- A packet of a GETR's data enters the bank; with the last of its run the run has landed, with the padding of a px8 row (R149, R347). -/
def State.inboundLands (s : State) (c : Copy) (d : Inbound) : State :=
  match c.runs[d.run]? with
  | none => s
  | some w =>
    let p : Piece := { pos := 0, key := bankKey c.bank (c.off + w.pos + d.pos), n := d.data.length, tag := 0 }
    let s := ((s.writePiece p d.data).clearPoison p).modCopy c.id fun c => { c with inbound := c.inbound.filter fun e => e.id != d.id }
    if c.inbound.any fun e => e.run == d.run && e.id != d.id then s
    else if w.n = 0 then s.copyLanded c.id d.run
    else
      ((List.range (w.span - w.n)).foldl (fun (s : State) i => s.setByte (bankKey c.bank (c.off + w.pos + w.n + i)) 0) s).copyLanded c.id d.run

/-- Runs are sent, in order (R347); the directory of a px8 GETR is made by the I/O die itself. -/
def State.sendFrom (s : State) (c : Copy) : List (Nat × Run) → State
  | [] => s
  | (i, w) :: t =>
    if w.n = 0 then
      (s.bringRun c i w ((List.range w.span).map (pxDirByte c.shape c.rows))).sendFrom c t
    else if s.runPoisoned c w && c.poisonOk != some i then s.copyStop c i .poison (c.farVA w.off)
    else
      let s := if c.kind = .putr then s.correctRun (bankKey c.bank (c.off + w.pos)) w.n else s
      match s.askCopy c (if c.kind = .putr then .put c.id i else .get c.id i) w.off w.n (if c.kind = .putr then s.runBytes c w else []) with
      | some s => s.sendFrom c t
      | none => s.copyNoDevice c

/-- The runs of a transfer from packet p on are sent, and those lost before it while the copy was suspended. -/
def State.sendRuns (s : State) (c : Copy) (p : Nat) : State :=
  s.sendFrom c ((c.runs.mapIdx fun i w => (i, w)).filter fun e => p ≤ e.1 || c.lost.contains e.1)

/-- A px8 GETR asks for a word of its source; the copy is suspended at the row when the word lies outside the segment, or no
valid entry names the device (R148, R347). -/
def State.askWord (s : State) (c : Copy) (off : Nat) : State :=
  if !segOk c.seg (c.far + BitVec.ofNat 64 off) 4 .copyRead then s.copyStop c 0 .seg (c.farVA off)
  else match s.askCopy c (.probe c.id) off 4 [] with
    | some s => s
    | none => s.copyNoDevice c

/-- A GETR of px8 asks for the next directory word, or sends its runs once every row is known. -/
def State.probeRow (s : State) (c : Copy) : State :=
  if c.rowsKnown then s.sendRuns c 0 else s.askWord c (4 * c.rows.length * shStride c.shape 1)

/-- The answer to a probe (R148): a directory word, or the header of a block. -/
def State.probed (s : State) (id : Nat) (bs : List Byte) : State :=
  match s.copy id with
  | none => s
  | some c =>
    if c.fault.isSome then s else
    let ask (s : State) (p : PxProbe) : State :=
      (s.modCopy id fun c => { c with probe := some p }).askWord { c with probe := some p } (p.src + p.len)
    match c.probe with
    | none => ask s { src := ofLe bs, len := 0, left := shDim c.shape 0 / 32 }
    | some p =>
      let p := { p with len := p.len + 2 * pxLenOf (bs.map BitVec.toNat), left := p.left - 1 }
      if p.left ≠ 0 then ask s p
      else if !segOk c.seg (c.far + BitVec.ofNat 64 p.src) p.len .copyRead then s.copyStop c 0 .seg (c.farVA p.src)
      else
        let c := { c with rows := c.rows ++ [{ src := p.src, len := p.len }], probe := none }
        (s.modCopy id fun _ => c).probeRow c

/-- Requests and data of a copy from packet p on are no longer waited for: they are sent again. -/
def State.forgetRuns (s : State) (id p : Nat) : State :=
  (s.modCopy id fun c => { c with inbound := c.inbound.filter fun d => d.run < p }).modIod fun d => { d with requests := d.requests.filter fun q => match q.what with
    | .put c n | .get c n => c != id || n < p
    | .probe c => c != id
    | _ => true }

/-- A fabric transfer starts, or starts again at a packet, unless an earlier copy of its streamer is suspended (R152). -/
def State.awayGo (s : State) (c : Copy) (p : Nat) : State :=
  if s.heldUp c then s.modCopy c.id fun c => { c with behind := true, resume := p }
  else
    let c := { c with behind := false }
    let s := (s.modCopy c.id fun k => { c with lost := [], fault := k.fault }).forgetRuns c.id p
    if (s.iod.route (segDev c.seg)).isNone then s.copyNoDevice c
    else if c.rowsKnown then s.sendRuns c p
    else s.probeRow c

/-! Packets on the die (R149, R152). -/

/-- COPY_PACKET_LAND (R149, R150, R152): a packet of a copy on the die lands at once, or the copy is suspended. Past the
known rows of a px8 source the streamer finds the next row. A packet of a GETR's data lands also while its copy is suspended. A fabric
transfer that waited behind a suspended copy starts. -/
def execCopyPacketLand (id packet : Nat) (s : State) : Host.Outcome State Fault Refusal :=
  match s.copy id with
  | none => .next s
  | some c =>
    match c.inbound.find? fun d => d.id == packet with
    | some d => .next (if s.landWaits c || s.copyOut c then s.post (.copyPacketLand id packet) else s.inboundLands c d)
    | none =>
    if !c.started || c.fault.isSome || s.heldUp c then .next s
    else if c.away then .next (if c.behind && !s.copyOut c then s.awayGo c c.resume else s)
    else if c.landed.contains packet then .next s
    else if s.landWaits c || s.copyOut c then .next (s.post (.copyPacketLand id packet))
    else if c.unknown packet then
      match s.findRow c with
      | (.inl w, offs) =>
        let c := { c with rows := c.rows ++ [w] }
        .next (((s.measured c offs).modCopy id fun _ => c).copyGo c packet)
      | (.inr (.fault k va), offs) => .next ((s.measured c offs).copyStop c packet k va)
      | (.inr _, _) => .next (s.post (.copyPacketLand id packet))
    else
      match s.packetAt c packet with
      | .fault k va => .next (s.copyStop c packet k va)
      | .wait => .next (s.post (.copyPacketLand id packet))
      | .hops hs vas =>
        if hs.any s.hopPoisoned && c.poisonOk != some packet then
          .next (s.copyStop c packet .poison (s.poisonVA c packet hs))
        else
          let d := (dieOf c.slot.place).getD 0
          let s := s.touch d c.owner (if c.kind = .cpyb then .copyWrite else .copyRead) vas
          .next (((s.moveHops hs).countPacket c hs).copyLanded id packet)

/-- COPY_FAULT (R140, R152): the page-fault record and the copy-fault message. ACC is a copy write for CPYB and PUTR, also when the
poison is on their bank side, and a copy read for the others (DESIGN CHOICE, log 85). -/
def execCopyFault (id : Nat) (kind : Nat) (s : State) : Host.Outcome State Fault Refusal :=
  match s.copy id with
  | none => .next s
  | some c =>
    match c.fault with
    | none => .next s
    | some f =>
      if f.kind.code ≠ kind then .next s
      else
        let writes := c.kind == .cpyb || c.kind == .putr
        let rec_ := pfqRecord c.handle true f.kind (if writes then .copyWrite else .copyRead) c.owner f.va
        let s := s.pfqPost ((dieOf c.slot.place).getD 0) rec_
        let tag := match c.msg with | some m => m.tag.toNat | none => 0
        .next (s.streamerMail c (placeKey c.slot.place) c.ctx 14
          { header := BitVec.ofNat 64 (0x07 + (slotId c.slot % 2 ^ 16) * 2 ^ 8 + tag * 2 ^ 24 + c.handle * 2 ^ 39)
            payload := BitVec.ofNat 64 (f.off + f.kind.code * 2 ^ 32) })

/-! The streamer (R66, R149). -/

/-- Streamer handle of a copy (R140, R149). The group of a CPYG whose first byte has no translation yet is that of its near
die's group 0 (log 32). -/
def State.streamerOf (s : State) (c : Copy) : Nat :=
  let d := (dieOf c.slot.place).getD 0
  match c.kind with
  | .getr => 0
  | .cpyg =>
    match s.farAt d c.owner (segBase c.seg + c.far.toNat) .copyRead with
    | .at key _ => (9 + key / 2 ^ 38) * 2 ^ 11 + key % 2 ^ 38 / 2 ^ 12 % 48 / 6
    | _ => (9 + d) * 2 ^ 11
  | _ => (1 + coreDie (bankSite c.bank)) * 2 ^ 11 + bankSite c.bank % 2 ^ 10

/-- STREAMER_TRAFFIC_INJECTION (R66, R148): the oldest command of w4 goes to its streamer. -/
def execStreamerTrafficInjection (core : Nat) (s : State) : Host.Outcome State Fault Refusal :=
  match (s.site core).w4 with
  | [] => .next s
  | id :: rest =>
    let s := s.modSite core fun x => { x with w4 := rest }
    match s.copy id with
    | none => .next s
    | some c =>
      let c := { c with started := true, handle := s.streamerOf c }
      let s := s.modCopy id fun _ => c
      .next (if c.away then s.awayGo c 0 else s.copyGo c c.next)

/-! Issue (R146, R148, R318). -/

/-- Whether a copy writes its bank. -/
def CopyKind.fills : CopyKind → Bool
  | .cpyg | .getr => true
  | _ => false

/-- What the checks of a copy answer. -/
inductive CopyAt where
  | ok (c : Copy)
  | trap (t : TrapInfo)
  | park (p : Park)

/-- The checks of R318 and R148, in order. A window whose hand-over is under way keeps the copy waiting, so that it is resolved
against the window's new state (R115). On the far side of a CPYX TADDR is the word g[c] (DESIGN CHOICE, log 72). -/
def copyCheck (s : State) (r : SlotRef) (x : Slot) (kind : CopyKind) (ts : BitVec 5) (off : Dword) (far : Dword) (w : R4)
    (sig : Option Signal) (msg : Option CopyMsg) (sg : BitVec 3) : CopyAt :=
  let core := placeKey r.place
  let port (a : Dword) : CopyAt := .trap { cause := cPORT, taddr := a }
  let owner := x.owner.toNat
  let tc := (far.extractLsb' 0 13).toNat
  let tw := (far.extractLsb' 16 4).toNat
  let foff := (far.extractLsb' 20 16).toNat
  let xc := kind == .cpyx
  let local_ : Dword := BitVec.ofNat 64 (w.toNat * 2 ^ 16 + off.toNat)
  let d := x.getS sg
  let fva := if xc then far else segAddr d far
  if off.extractLsb' 16 48 ≠ 0 then .trap { cause := cILL }
  else if xc && (far.extractLsb' 13 3 != 0 || far.extractLsb' 36 28 != 0) then .trap { cause := cILL }
  else if xc && (some (coreDie tc) != dieOf r.place || s.target tc owner true != Target.site) then port far
  else match s.shapeFor r x ts with
    | none => port 0
    | some sh =>
      let e := s.entry core w.toNat
      let te := s.entry tc tw
      let al := 2 ^ shAlign sh
      let bound := if shPx sh then pxBound sh else shLength sh
      let acc : Acc := if kind.fills then .copyRead else .copyWrite
      if shPx sh && !kind.fills then port 0
      else if s.handing core w.toNat then .park (.handing core w.toNat)
      else if !e.att || (if kind.fills then !e.wr else !e.rd) then port local_
      else if xc && s.handing tc tw then .park (.handing tc tw)
      else if xc && (!te.att || !te.wr || te.owner.toNat != owner) then port far
      else if 2 ^ 16 < off.toNat + bound then port local_
      else if xc && 2 ^ 16 < foff + shExtent sh then port far
      else if off.toNat % al ≠ 0 then port local_
      else if (if xc then foff else fva.toNat) % al ≠ 0 then port fva
      else if !xc && (!segOk d far (shExtent sh) acc || (segDev d != 0) != (kind == .putr || kind == .getr)) then port fva
      else .ok
        { id := s.fresh, kind := kind, slot := r, acct := s.acctOf r, owner := owner, ctx := s.ctxOf r, bank := e.bank, off := off.toNat, seg := d, far := far,
          farCore := tc, farCtx := s.loadedOn tc, farBank := te.bank, farOff := foff, shape := sh, sig := sig, msg := msg }

/-- Scope of the release a copy makes (R318, R329, R346). -/
def CopyKind.scope : CopyKind → Nat
  | .cpyx => 0
  | .cpyg | .cpyb => 1
  | _ => 2

/-- Issuing a copy (R148, R318). -/
def copyIssue (s : State) (r : SlotRef) (x : Slot) (kind : CopyKind) (ts : BitVec 5) (c b w : R4) (sig : Option Signal)
    (msg : Option CopyMsg) (sg : BitVec 3) : Res :=
  match copyCheck s r x kind ts (x.getG b) (x.getG c) w sig msg sg with
  | .trap t => .trap t
  | .park p => .park s p
  | .ok k =>
    let core := placeKey r.place
    if !x.drained kind.scope then .park s (.drainRelaxed kind.scope)
    else if 8 ≤ (s.site core).w4.length then .park s .w4Full
    else
      let s := { s.bump with copies := s.copies ++ [k] }
      .done (s.modSite core fun y => { y with w4 := y.w4 ++ [k.id] })

/-- CPYG (R146, R317, R318). -/
def execCpyg (q : R4) (ts : BitVec 5) (c b w : R4) (sig : Option Signal) (msg : Option CopyMsg) (sg : BitVec 3) (s : State) :
    Host.Outcome State Fault Refusal :=
  issue (.cpyg q ts c b w sig msg sg) q s fun r x s => copyIssue s r x .cpyg ts c b w sig msg sg

/-- CPYB (R146, R317, R318). -/
def execCpyb (q : R4) (ts : BitVec 5) (c b w : R4) (sig : Option Signal) (msg : Option CopyMsg) (sg : BitVec 3) (s : State) :
    Host.Outcome State Fault Refusal :=
  issue (.cpyb q ts c b w sig msg sg) q s fun r x s => copyIssue s r x .cpyb ts c b w sig msg sg

/-- CPYX (R146, R317, R318). -/
def execCpyx (q : R4) (ts : BitVec 5) (c b w : R4) (sig : Option Signal) (msg : Option CopyMsg) (s : State) :
    Host.Outcome State Fault Refusal :=
  issue (.cpyx q ts c b w sig msg) q s fun r x s => copyIssue s r x .cpyx ts c b w sig msg 0

/-- PUTR (R346, R347). -/
def execPutr (q : R4) (ts : BitVec 5) (c b w : R4) (sig : Option Signal) (msg : Option CopyMsg) (sg : BitVec 3) (s : State) :
    Host.Outcome State Fault Refusal :=
  issue (.putr q ts c b w sig msg sg) q s fun r x s => copyIssue s r x .putr ts c b w sig msg sg

/-- GETR (R329, R347). -/
def execGetr (q : R4) (ts : BitVec 5) (c b w : R4) (sig : Option Signal) (msg : Option CopyMsg) (sg : BitVec 3) (s : State) :
    Host.Outcome State Fault Refusal :=
  issue (.getr q ts c b w sig msg sg) q s fun r x s => copyIssue s r x .getr ts c b w sig msg sg

/-! WAKE (R141, R385). -/

/-- Whether a copy belongs to the die of a socket: it was issued there, or its streamer lies there. -/
def Copy.ofSocket (c : Copy) (sock : Nat) : Bool := socketOf c.slot.place == sock || c.handle / 2 ^ 11 == sock

/-- WAKE for a suspended copy (R141, R152): it resumes at its faulting packet, or is abandoned. -/
def State.wakeCopy (s : State) (sock : Option Nat) (handle : Nat) (fail : Bool) : State :=
  match s.copies.find? fun c => c.started && c.fault.isSome && c.handle == handle && sock.all c.ofSocket with
  | none => s
  | some c =>
    match c.fault with
    | none => s
    | some f =>
      if fail then s.copyEnd c 1
      else
        let c := { c with
          fault := none
          resume := f.packet
          probe := none
          poisonOk := if f.kind = .poison then some f.packet else c.poisonOk
          landed := if c.away then c.landed.filter (· < f.packet) else c.landed }
        let s := s.modCopy c.id fun _ => c
        (if c.away then (if s.copyOut c then s else s.awayGo c f.packet) else s.copyGo c f.packet).streamerFree handle

/-- What WAKE's operand asks for, on any die or on that of a socket. -/
def State.wakeAt (s : State) (sock : Option Nat) (v : Dword) : State :=
  let id := (v.extractLsb' 0 16).toNat
  if v.getLsbD 17 then s.wakeCopy sock id (v.getLsbD 16) else s.wakeSlot sock id (v.getLsbD 16)

/-- What WAKE's operand asks for. -/
def State.wake (s : State) (v : Dword) : State := s.wakeAt none v

/-- WAKE (R141, R385). -/
def execWake (q : R4) (a : R4) (s : State) : Host.Outcome State Fault Refusal :=
  issue (.wake q a) q s fun _ x s =>
    let v := x.getG a
    if v.extractLsb' 18 46 ≠ 0 then trapOf cILL else .done (s.wake v)

end Sys2Proof.Machine
end

