-- ==== Sys2Proof/Machine/Latches.lean ====
section
/-! DEFINITION. Neighbour latches (R85-R88, R341). -/
namespace Sys2Proof.Machine

/-- Number of a direction: the latch it names. -/
def dirNum (d : Dir) : Nat := (Dir.code d).toNat
/-- The opposite direction. -/
def opposite : Dir → Dir
  | .east => .west | .west => .east | .north => .south | .south => .north

/-- The neighbour of a core in a direction, reckoned within a rectangle that closes into rings (R85). -/
def ringNeighbour (rect : Word) (c : Nat) (d : Dir) : Nat :=
  let lo := rectLo rect
  let hi := rectHi rect
  let row := coreRow c
  let col := coreCol c
  match d with
  | .east => coreId (coreDie c) row (if col = coreCol hi then coreCol lo else col + 1)
  | .west => coreId (coreDie c) row (if col = coreCol lo then coreCol hi else col - 1)
  | .south => coreId (coreDie c) (if row = coreRow hi then coreRow lo else row + 1) col
  | .north => coreId (coreDie c) (if row = coreRow lo then coreRow hi else row - 1) col

/-- Entries of a latch, and those under way to it. -/
def Slot.inLatch (x : Slot) (d : Dir) : List Vec := tget [] x.latch (dirNum d)
/-- Entries under way to a latch. -/
def Slot.onWay (x : Slot) (d : Dir) : List Vec := tget [] x.coming (dirNum d)
/-- Whether a latch has no free entry. -/
def Slot.latchFull (x : Slot) (d : Dir) : Bool := 2 ≤ (x.inLatch d).length + (x.onWay d).length
/-- Setting a latch. -/
def Slot.setLatch (x : Slot) (d : Dir) (q : List Vec) : Slot := { x with latch := tset [] x.latch (dirNum d) q }
/-- Setting the entries under way. -/
def Slot.setComing (x : Slot) (d : Dir) (q : List Vec) : Slot := { x with coming := tset [] x.coming (dirNum d) q }

/-- NPUT (R86, R341). In a streamed row an entry pushed east, but for the wrap, is in the latch at once (R87). -/
def execNput (q : R4) (dir : Dir) (a : R4) (s : State) : Host.Outcome State Fault Refusal :=
  issue (.nput q dir a) q s fun r x s =>
    match r.place with
    | .mesh c =>
      if x.spawned then trapOf cILL
      else
        let nb := ringNeighbour x.rect c dir
        let t := meshSlot nb r.k
        let o := opposite dir
        if (s.slot t).latchFull o then .park s (.nput dir)
        else if x.streamed && dir == .east && !eastEdge x.rect c then
          .done (s.modSlot t fun y => y.setLatch o (y.inLatch o ++ [x.getV a]))
        else .done ((s.modSlot t fun y => y.setComing o (y.onWay o ++ [x.getV a])).post (.latchEntryArrival nb r.k o))
    | _ => trapOf cILL

/-- NGET (R86, R341). -/
def execNget (q : R4) (dir : Dir) (d : R4) (s : State) : Host.Outcome State Fault Refusal :=
  issue (.nget q dir d) q s fun r x s =>
    if x.spawned then trapOf cILL
    else match x.inLatch dir with
      | [] => .park s (.nget dir)
      | v :: rest => .done (s.setSlot r ((x.setLatch dir rest).setV d v))

/-- LATCH_ENTRY_ARRIVAL (R85): the oldest entry under way is in the latch. -/
def execLatchEntryArrival (core k : Nat) (dir : Dir) (s : State) : Host.Outcome State Fault Refusal :=
  let r := meshSlot core k
  let x := s.slot r
  match x.onWay dir with
  | [] => .next s
  | v :: rest => .next (s.setSlot r ((x.setComing dir rest).setLatch dir (x.inLatch dir ++ [v])))

end Sys2Proof.Machine
end

