-- ==== Sys2Proof/Machine/Matrix.lean ====
section
/-! DEFINITION. The matrix unit (R162, R163, R179-R196, R339). Formats are FMT4 codes. -/
namespace Sys2Proof.Machine

/-! Tiles and latches (R179). -/

/-- Kind of a tile. -/
def Site.kind (x : Site) (n : Nat) : TileKind := tget .zero x.accKind n
/-- Code of an element; a ZERO tile reads zero. -/
def Site.elem (x : Site) (n m c : Nat) : Nat := if x.kind n = .zero then 0 else (tget 0 x.accElem (256 * n + 16 * m + c)).toNat
/-- Writing a tile whole: codes in order (m, n). -/
def Site.setTile (x : Site) (n : Nat) (k : TileKind) (codes : List Nat) : Site :=
  let rec put (t : Table (BitVec 48)) (i : Nat) : List Nat → Table (BitVec 48)
    | [] => t
    | c :: rest => put (tset 0 t (256 * n + i) (BitVec.ofNat 48 c)) (i + 1) rest
  { x with accKind := tset .zero x.accKind n k, accElem := put x.accElem 0 codes }
/-- A latch buffer. -/
def Site.latBuf (x : Site) (b : Bool) : Latch := tget {} x.lat b.toNat
/-- Writing a latch buffer. -/
def Site.setLat (x : Site) (b : Bool) (l : Latch) : Site := { x with lat := tset {} x.lat b.toNat l }

/-! Rows of R182. -/

/-- FP8-class formats: e4m3, e5m2, px8. -/
def isFp8 (f : R4) : Bool := f == 11 || f == 12 || f == 14
/-- f32 or bf16. -/
def isTrop (f : R4) : Bool := f == 10 || f == 9
/-- The tile kind that a semiring and its operand formats write; none when they form no row (R182). -/
def mmaKind (srg : Nat) (fa fb : R4) : Option TileKind :=
  match srg with
  | 0 =>
    if isFp8 fa && isFp8 fb then some .f48
    else if fa == fb && (fa == 9 || fa == 8) then some .f48
    else if fa == 0 && fb == 0 then some .i48
    else none
  | 1 | 2 | 3 => if isTrop fa && isTrop fb then some .f32 else none
  | 4 => if fa == 10 && fb == 10 then some .f32 else none
  | 5 => if fa == 5 && fb == 5 then some .bit else none
  | _ => none

/-! Reading operands (R183, R184). -/

/-- The outcome of R103 over runs in order: the first that stops. -/
def State.runsStop (s : State) (core : Nat) (held : List HeldBank) (rs : List LRun) : Option LocalAt :=
  rs.findSome? fun r => match s.localAt core held r.1 .load with
    | .keys _ => none
    | o => some o

/-- First run that holds poison: TADDR of POIS is its start (DESIGN CHOICE, log 78). -/
def State.runsPoison (s : State) (core : Nat) (held : List HeldBank) (rs : List LRun) : Option Nat :=
  (rs.find? fun r => match s.localAt core held r.1 .load with
    | .keys k => s.piecePoisoned { pos := 0, key := k, n := r.2, tag := 0 }
    | _ => false).map Prod.fst

/-- Bytes of a run. -/
def State.runData (s : State) (core : Nat) (held : List HeldBank) (r : LRun) : List Nat :=
  match s.localAt core held r.1 .load with
  | .keys k => (s.bytes k r.2).map BitVec.toNat
  | _ => List.replicate r.2 0

/-- Little-endian codes of e bytes each. -/
def codesOf (e : Nat) (bs : List Nat) : List Nat :=
  (List.range (bs.length / e)).map fun i => ofLe (((bs.drop (e * i)).take e).map (BitVec.ofNat 8))

/-- An operand's elements and scales: 16 rows of K codes (px8 decoded to e4m3), and 16 rows of K / 32 scale codes when it
is scaled. -/
structure Operand where
  fmt : R4
  rows : List (List Nat)
  scales : Option (List (List Nat))
  deriving DecidableEq, Repr

/-- The blocks of a px8 row, decoded (R170). -/
def pxBlocks : Nat → List Nat → List (List Nat × Nat)
  | 0, _ => []
  | n + 1, bs =>
    (pxDecode bs).getD (List.replicate 32 0x7F, 0xFF) :: pxBlocks n (bs.drop (2 * pxLenOf bs))

/-- Reading an operand whose runs are sound. -/
def State.readOperand (s : State) (core : Nat) (held : List HeldBank) (o : OpSpec) (rows : List LRun) : Operand :=
  let data := rows.map (s.runData core held)
  if o.fmt = 14 then
    let bl := data.map (pxBlocks (o.k / 32))
    { fmt := 11, rows := bl.map fun r => r.flatMap Prod.fst, scales := some (bl.map fun r => r.map Prod.snd) }
  else
    { fmt := o.fmt
      rows := data.map (codesOf o.elem)
      scales := if o.scl = 0 then none else
        some ((List.range 16).map fun m => s.runData core held (o.scl + m * (o.k / 32), o.k / 32)) }

/-- An operand held in a latch buffer. -/
def latchOperand (l : Latch) : Operand :=
  let row (w : Nat) (xs : List Nat) (m : Nat) : List Nat := (xs.drop (w * m)).take w
  { fmt := if l.fmt = 14 then 11 else l.fmt
    rows := (List.range 16).map (row l.k l.data)
    scales := if l.scaled then some ((List.range 16).map (row (l.k / 32) l.scales)) else none }

/-! Sums (R185-R187). -/

/-- LSB exponent of the inner accumulator (R185). -/
def innerLsb (fa fb : R4) : Int := if fa = 12 ∧ fb = 12 then -11 else if fa = 12 ∨ fb = 12 then -16 else -20

/-- An exact product in units of 2^L, truncated toward zero. -/
def truncTo (l : Int) : FVal → Int
  | .fin neg m e =>
    let u : Nat := if l ≤ e then m * 2 ^ (e - l).toNat else m / 2 ^ (l - e).toNat
    if neg then -(u : Int) else u
  | _ => 0

/-- Whether a value is a NaN or an infinity. -/
def FVal.special : FVal → Bool
  | .fin .. => false
  | _ => true

/-- The side value with one more special value (R186): opposite infinities give NaN and NV. -/
def mergeSide (side : Option FVal) (v : FVal) : Option FVal × BitVec 6 :=
  match side with
  | none => (some (match v with | .nan _ => .nan false | w => w), fNone)
  | some w => match addVal 0 w v with
    | (.nan _, f) => (some (.nan false), if w.isNan || v.isNan then fNone else f)
    | (u, _) => (some u, fNone)

/-- A cell of the FP8-class path: outer sum, inner sum, side value, flags, forced promotions. -/
structure Cell where
  c : Nat
  inner : Int := 0
  side : Option FVal := none
  flags : BitVec 6 := 0
  forced : Nat := 0
  deriving DecidableEq, Repr

/-- promote(j) (R185); `sc` is the sum of the two scale exponents. -/
def Cell.promote (x : Cell) (mode : Nat) (l sc : Int) : Cell :=
  let v : FVal := match x.side with
    | some v => v
    | none => .fin (decide (x.inner < 0)) x.inner.natAbs (l + sc)
  let r := fAdd ffF48 mode (ffF48.value x.c) v
  { x with c := r.1, inner := 0, side := none, flags := x.flags ||| r.2 }

/-- A special product or NaN element enters the side value; 0 x inf raises NV. -/
def Cell.special (x : Cell) (v : FVal) (f : BitVec 6) : Cell :=
  let e := mergeSide x.side v
  { x with side := e.1, flags := x.flags ||| e.2 ||| f }

/-- One pair of products (R185, R186). Special products enter the side value one after the other (DESIGN CHOICE, log 96). -/
def Cell.pair (x : Cell) (mode : Nat) (l sc : Int) (p q : FVal × BitVec 6) : Cell :=
  if p.1.special || q.1.special then
    let x := if p.1.special then x.special p.1 p.2 else x
    if q.1.special then x.special q.1 q.2 else x
  else
    let v := truncTo l p.1 + truncTo l q.1
    let t := x.inner + v
    let x := if 2 ^ 43 - 1 < t ∨ t < -(2 ^ 43) then
        let y := x.promote mode l sc
        { y with forced := y.forced + 1 }
      else x
    { x with inner := x.inner + v }

/-- Product of two elements; NV only for 0 x inf (every NaN of the class is quiet). -/
def fp8Mul (fa fb : R4) (a b : Nat) : FVal × BitVec 6 := mulVal (valueIn (fmtOf fa) a) (valueIn (fmtOf fb) b)

/-- Pairs of a block. -/
def Cell.pairs (x : Cell) (mode : Nat) (l sc : Int) (fa fb : R4) : List Nat → List Nat → Cell
  | a :: a' :: as, b :: b' :: bs => (x.pair mode l sc (fp8Mul fa fb a b) (fp8Mul fa fb a' b')).pairs mode l sc fa fb as bs
  | _, _ => x

/-- The blocks j .. nb of a cell. Pairs of a block whose scale is 0xFF are multiplied like any other
(log 87). -/
def Cell.blocks (x : Cell) (mode prom : Nat) (scaled : Bool) (l : Int) (fa fb : R4) (nb : Nat) :
    Nat → Nat → List Nat → List Nat → List Nat → List Nat → Cell
  | 0, _, _, _, _, _ => x
  | f + 1, j, as, bs, sa, sb =>
    let ca := (sa.head?).getD 127
    let cb := (sb.head?).getD 127
    let sc : Int := (ca : Int) + cb - 254
    let x := if ca % 256 = 0xFF ∨ cb % 256 = 0xFF then x.special (.nan false) fNone else x
    let x := x.pairs mode l sc fa fb (as.take 32) (bs.take 32)
    let x := if scaled || (j + 1) % prom == 0 || j == nb then x.promote mode l sc else x
    x.blocks mode prom scaled l fa fb nb f (j + 1) (as.drop 32) (bs.drop 32) sa.tail sb.tail

/-- A cell's sum in the FP8-class path. -/
def fp8Cell (mode prom nb : Nat) (a b : Operand) (m n start : Nat) : Cell :=
  let row (o : Operand) (i : Nat) : List Nat := (o.rows[i]?).getD []
  let sc (o : Operand) (i : Nat) : List Nat := match o.scales with
    | some t => (t[i]?).getD []
    | none => []
  ({ c := start } : Cell).blocks mode prom (a.scales.isSome || b.scales.isSome) (innerLsb a.fmt b.fmt) a.fmt b.fmt nb (nb + 1) 0
    (row a m) (row b n) (sc a m) (sc b n)

/-- One step of the other families (R187): the code of c, with its flags. -/
def plainStep (kind : TileKind) (srg mode : Nat) (fa fb : R4) (c a b : Nat) : Nat × BitVec 6 :=
  let va := valueIn (fmtOf fa) a
  let vb := valueIn (fmtOf fb) b
  match kind with
  | .f48 => fFma ffF48 mode va vb (ffF48.value c)
  | .i48 =>
    let t := signedOf 48 c + signedOf 8 a * signedOf 8 b
    let e := clampS 48 t
    (narrow 48 e.1, if e.2 then fSAT else fNone)
  | .bit => (if c ≠ 0 ∨ (List.range 16).any (fun t => a.testBit t && b.testBit t) then 1 else 0, fNone)
  | _ =>
    if srg = 4 then fFma ffF32 mode va vb (ffF32.value c)
    else
      let t := if srg = 3 then fMul ffF32 mode va vb else fAdd ffF32 mode va vb
      let r := fMinMax ffF32 (srg != 1) c t.1
      (r.1, r.2 ||| t.2)

/-- A cell's sum in ascending k. -/
def plainCell (kind : TileKind) (srg mode : Nat) (fa fb : R4) : List Nat → List Nat → Nat × BitVec 6 → Nat × BitVec 6
  | a :: as, b :: bs, (c, f) =>
    let r := plainStep kind srg mode fa fb c a b
    plainCell kind srg mode fa fb as bs (r.1, f ||| r.2)
  | _, _, r => r

/-- Start value of a cell when accumulate = 0 (R182). -/
def startCode (srg : Nat) : Nat := match srg with | 1 => 0x7F800000 | 2 | 3 => 0xFF800000 | _ => 0

/-- The 256 sums of an MMA: codes, flags, forced promotions. -/
def mmaSums (kind : TileKind) (cfg : MmaCfg) (nb : Nat) (a b : Operand) (start : Nat → Nat → Nat) : List Nat × BitVec 6 × Nat :=
  let fp8 := cfg.srg == 0 && isFp8 cfg.fmta
  let cells : List (Nat × BitVec 6 × Nat) := (List.range 16).flatMap fun m => (List.range 16).map fun n =>
    if fp8 then
      let x := fp8Cell cfg.mode cfg.prom nb a b m n (start m n)
      (x.c, x.flags, x.forced)
    else
      let r := plainCell kind cfg.srg cfg.mode a.fmt b.fmt ((a.rows[m]?).getD []) ((b.rows[n]?).getD []) (start m n, fNone)
      (r.1, r.2, 0)
  (cells.map Prod.fst, cells.foldl (fun f e => f ||| e.2.1) fNone, cells.foldl (fun n e => n + e.2.2) 0)

/-- Cycles an MMA runs (R188). -/
def mmaCycles (cfg : MmaCfg) (k forced : Nat) : Nat :=
  (match cfg.srg with
    | 0 => if isFp8 cfg.fmta || cfg.fmta == 0 then k / 2 else k
    | 5 => k
    | _ => 4 * k) + 16 + forced

/-! The queue w5 (R180). -/

/-- The event that runs a command. -/
def runEvent (core : Nat) : MatrixCmd → Instr
  | .mma .. => .mmaRun core
  | .mzero _ => .mzeroRun core
  | .mstoMem .. | .mstoStream .. => .mstoRun core
  | .mlatch .. => .mlatchRun core
  | .mpass x d => .latchPass core x d

/-- The unit turns to the head of w5; an MMA whose sums are made goes on with its pass. -/
def State.kick (s : State) (core : Nat) : State :=
  match (s.site core).w5 with
  | [] => s
  | e :: _ => s.post (match e.cmd with
    | .mma _ _ _ (.lat l) .. => if e.summed then .latchPass core l .east else runEvent core e.cmd
    | _ => runEvent core e.cmd)

/-- The head of w5 ends. -/
def State.unqueue (s : State) (core : Nat) : State :=
  (s.modSite core fun x => { x with w5 := x.w5.drop 1 }).kick core

/-- Changing the head of w5. -/
def State.modHead (s : State) (core : Nat) (f : Queued → Queued) : State :=
  s.modSite core fun x => match x.w5 with
    | e :: t => { x with w5 := f e :: t }
    | [] => x

/-- Words of a command's instruction. -/
def cmdWords : MatrixCmd → Nat
  | .mma .. => 2
  | _ => 1

/-- A command whose issuer waits for it completes: the issuer resumes (R180). -/
def State.cmdDone (s : State) (core : Nat) (e : Queued) (f : Slot → Slot) : State :=
  let s := s.unqueue core
  if (s.slot e.slot).status = Status.parked (.matrix e.id) then s.complete e.slot (cmdWords e.cmd) f else s

/-- A command whose issuer waits for it traps (R184): the tile and the buffers are unchanged. -/
def State.cmdTrap (s : State) (core : Nat) (e : Queued) (t : TrapInfo) : State :=
  let s := s.unqueue core
  if (s.slot e.slot).status = Status.parked (.matrix e.id) then s.takeTrap e.slot t else s

/-- Putting a command into w5 (R180): parked while it is full, the running command counted (DESIGN CHOICE, log 79); `waits` keeps
the issuer parked until it completes. -/
def State.enqueueCmd (s : State) (r : SlotRef) (cmd : MatrixCmd) (waits : Bool) : Res :=
  let core := placeKey r.place
  let q := (s.site core).w5
  if 8 ≤ q.length then .park s .w5Full
  else
    let e : Queued := { id := s.fresh, slot := r, cmd := cmd }
    let s' := s.bump.modSite core fun x => { x with w5 := x.w5 ++ [e] }
    let s' := if q = [] then s'.kick core else s'
    if waits then .park s' (.matrix e.id) else .done s'

/-- The command that a parked issuer has in w5, when it issues again after a page fault. -/
def State.pending (s : State) (r : SlotRef) : Option Queued :=
  (s.site (placeKey r.place)).w5.find? fun e => e.slot == r && match e.cmd with
    | .mma .. | .mlatch .. | .mstoMem .. => true
    | _ => false

/-- An issuer that issues again goes on waiting for its command; when its page fault was failed, SEGV (R141). -/
def State.again (s : State) (r : SlotRef) (x : Slot) (e : Queued) : Res :=
  let core := placeKey r.place
  match x.stage with
  | .failed va => .trapIn ((s.modSite core fun y => { y with w5 := y.w5.filter fun k => k.id ≠ e.id }).kick core) { cause := cSEGV, taddr := BitVec.ofNat 64 va }
  | _ => .park (s.kick core) (.matrix e.id)

/-! MMA (R181-R188). -/

/-- Valid PROM values. -/
def promOk (n : Nat) : Bool := [1, 2, 4, 8, 16, 32].contains n

/-- Checks of an operand's shape (R184 item 2): TADDR of the failure is the operand's address for its shape, the start of the run
that crosses for a crossing (DESIGN CHOICE, log 77). -/
def shapeBad (sh : Option (BitVec 256)) (addr k scl : Nat) : Option Nat :=
  match sh with
  | none => some addr
  | some h =>
    if shRank h ≠ 2 ∨ shDim h 0 < k ∨ shDim h 1 < 16 then some addr
    else ((opSpec addr h k scl).issueRuns.find? crosses).map Prod.fst

/-- Whether a shape slot is valid and of another format. -/
def wrongFmt (sh : Option (BitVec 256)) (f : R4) : Bool := match sh with | some h => shFmt h != f | none => false

/-- What an MMA samples (R182). -/
def mmaCfg (x : Slot) : MmaCfg :=
  { fmta := x.fmta, fmtb := x.fmtb, scla := x.scla.toNat, sclb := x.sclb.toNat, srg := x.srg.toNat, prom := x.prom.toNat, mode := x.rmode }

/-- MMA with B in a latch buffer (R181, R182, R184). -/
def execMmaLatch (q : R4) (ts : BitVec 5) (lat : Bool) (a : R4) (n : BitVec 2) (nb : BitVec 5) (accum passB : Bool) (s : State) :
    Host.Outcome State Fault Refusal :=
  issue (.mmaLatch q ts lat a n nb accum passB) q s fun r x s =>
    match s.pending r with
    | some e => s.again r x e
    | none =>
      let cfg := mmaCfg x
      let sh := s.shapeFor r x ts
      let addr := (x.getG a).toNat
      let k := 32 * (nb.toNat + 1)
      if (mmaKind cfg.srg cfg.fmta cfg.fmtb).isNone || !promOk cfg.prom || wrongFmt sh cfg.fmta then trapOf cILL
      else match shapeBad sh addr k cfg.scla with
        | some t => trapOf cELAL (BitVec.ofNat 64 t)
        | none =>
          let h := sh.getD 0
          s.enqueueCmd r (.mma n.toNat addr h (.lat lat) nb.toNat accum passB cfg) true

/-- MMA with B in local memory (R181, R182, R184). -/
def execMmaLocal (q : R4) (tsA tsB : BitVec 5) (b a : R4) (n : BitVec 2) (nb : BitVec 5) (accum : Bool) (s : State) :
    Host.Outcome State Fault Refusal :=
  issue (.mmaLocal q tsA tsB b a n nb accum) q s fun r x s =>
    match s.pending r with
    | some e => s.again r x e
    | none =>
      let cfg := mmaCfg x
      let sa := s.shapeFor r x tsA
      let sb := s.shapeFor r x tsB
      let aa := (x.getG a).toNat
      let ab := (x.getG b).toNat
      let k := 32 * (nb.toNat + 1)
      if (mmaKind cfg.srg cfg.fmta cfg.fmtb).isNone || !promOk cfg.prom || wrongFmt sa cfg.fmta || wrongFmt sb cfg.fmtb then
        trapOf cILL
      else match shapeBad sa aa k cfg.scla with
        | some t => trapOf cELAL (BitVec.ofNat 64 t)
        | none => match shapeBad sb ab k cfg.sclb with
          | some t => trapOf cELAL (BitVec.ofNat 64 t)
          | none => s.enqueueCmd r (.mma n.toNat aa (sa.getD 0) (.mem ab (sb.getD 0)) nb.toNat accum false cfg) true

/-- What getting an operand answers. -/
inductive OpAt where
  | ready (o : Operand)
  | trap (t : TrapInfo)
  | wait

/-- Pieces of memory that runs of a command lie in. -/
def State.runPieces (s : State) (core : Nat) (held : List HeldBank) (rs : List LRun) : List Piece :=
  rs.filterMap fun r => match s.localAt core held r.1 .load with
    | .keys k => some { pos := 0, key := k, n := r.2, tag := 0 }
    | _ => none

/-- The memory operands of a command, with the pieces read: item 4 of R184 first, then item 5 by `kindBad`, then items 6 and 7; a
px8 row that cannot be read stops it under item 6. Of several windows that stop it the first decides, in the order of the operands, of
each its rows or directory, its scales, then its px8 rows (DESIGN CHOICE, log 95). An earlier relaxed store of its slot to those bytes is waited for (R196, R238). -/
def State.memOperands (s : State) (core : Nat) (e : Queued) (os : List OpSpec) (kindBad : Bool) :
    (List Operand × List Piece) ⊕ Option TrapInfo :=
  let held := e.held
  let rows := os.map fun o => (o, s.opRows core held o)
  match rows.findSome? fun e => e.2.cross with
  | some t => .inr (some { cause := cELAL, taddr := BitVec.ofNat 64 t })
  | none =>
    if kindBad then .inr (some { cause := cILL })
    else
      let runs := rows.flatMap fun e => e.1.issueRuns ++ e.2.rows
      match s.runsStop core held runs with
      | some (.trap c t) => .inr (some { cause := c, taddr := t })
      | some _ => .inr none
      | none =>
        match rows.findSome? fun e => e.2.stop with
        | some (LocalAt.trap c t) => .inr (some { cause := c, taddr := t })
        | some _ => .inr none
        | none =>
          let ps := s.runPieces core held runs
          if (s.slot e.slot).unperformed ps then .inr none
          else match s.runsPoison core held runs with
            | some a => .inr (some { cause := cPOIS, taddr := BitVec.ofNat 64 a })
            | none => .inl (rows.map fun e => s.readOperand core held e.1 e.2.rows, ps)

/-- Flags and forced promotions of an MMA merge when it completes (R162, R185). -/
def Slot.mergeSums (y : Slot) (flags : BitVec 6) (forced : Nat) : Slot :=
  { (y.raise flags) with fprm := BitVec.ofNat 64 (Nat.min (2 ^ 64 - 1) (y.fprm.toNat + forced)) }

/-- The sums of an MMA enter its tile and the account's cycles follow (R185, R188, R282); then it waits for its pass, or completes
with its flags and FPRM (R162, R190). -/
def State.mmaWrite (s : State) (core : Nat) (e : Queued) (acc : Nat) (kind : TileKind) (cfg : MmaCfg) (nb : Nat) (accum : Bool)
    (pass : Option Bool) (a b : Operand) : State :=
  let x := s.site core
  let r := mmaSums kind cfg nb a b fun m n => if accum then x.elem acc m n else startCode cfg.srg
  let s := s.modSite core fun x => x.setTile acc kind r.1
  let s := s.charge (s.acctOf e.slot) 1 (256 * mmaCycles cfg (32 * (nb + 1)) r.2.2)
  match pass with
  | some l => (s.modHead core fun e => { e with summed := true, held := [], flags := r.2.1, forced := r.2.2 }).post (.latchPass core l .east)
  | none => s.cmdDone core e fun y => y.mergeSums r.2.1 r.2.2

/-- MMA_RUN (R180, R182-R188, R190): the head of w5 runs; it waits for its latch buffer or an await window. -/
def execMmaRun (core : Nat) (s : State) : Host.Outcome State Fault Refusal :=
  let x := s.site core
  match x.w5 with
  | e :: _ =>
    match e.cmd with
    | .mma acc addr shape b nb accum passB cfg =>
      if e.summed then .next s
      else
        let k := 32 * (nb + 1)
        let kind := (mmaKind cfg.srg cfg.fmta cfg.fmtb).getD .f48
        let kindBad := accum && x.kind acc != .zero && x.kind acc != kind
        let oa := opSpec addr shape k cfg.scla
        let d : Operand := { fmt := 0, rows := [], scales := none }
        match b with
        | .lat l =>
          let lb := x.latBuf l
          if lb.st = .empty then .next (s.post (.mmaRun core))
          else if lb.fmt ≠ cfg.fmtb ∨ lb.k ≠ k then .next (s.cmdTrap core e { cause := cILL })
          else match s.memOperands core e [oa] kindBad with
            | .inr (some t) => .next (s.cmdTrap core e t)
            | .inr none => .next (s.post (.mmaRun core))
            | .inl (os, ps) =>
              if lb.st = .filling then .next (s.post (.mmaRun core))
              else .next (((s.drawPieces ps).traffic core 2 ps false).mmaWrite core e acc kind cfg nb accum (if passB then some l else none) (os[0]?.getD d) (latchOperand lb))
        | .mem ab sb =>
          match s.memOperands core e [oa, opSpec ab sb k cfg.sclb] kindBad with
          | .inr (some t) => .next (s.cmdTrap core e t)
          | .inr none => .next (s.post (.mmaRun core))
          | .inl (os, ps) => .next (((s.drawPieces ps).traffic core 2 ps false).mmaWrite core e acc kind cfg nb accum none (os[0]?.getD d) (os[1]?.getD d))
    | _ => .next s
  | [] => .next s

/-! MZERO (R193). -/

/-- MZERO (R193). -/
def execMzero (q : R4) (n : BitVec 2) (s : State) : Host.Outcome State Fault Refusal :=
  issue (.mzero q n) q s fun r _ s => s.enqueueCmd r (.mzero n.toNat) false

/-- MZERO_RUN (R193): the tile's kind becomes ZERO. -/
def execMzeroRun (core : Nat) (s : State) : Host.Outcome State Fault Refusal :=
  match (s.site core).w5 with
  | { cmd := .mzero n, .. } :: _ =>
    .next ((s.modSite core fun x =>
      { x with accKind := tset .zero x.accKind n .zero, accElem := x.accElem.filter fun e => e.1 / 256 ≠ n }).unqueue core)
  | _ => .next s

/-! MLATCH (R189). -/

/-- Formats of R182. -/
def matrixFmt (f : R4) : Bool := isFp8 f || isTrop f || f == 8 || f == 0 || f == 5

/-- MLATCH (R189; its entry in the reference gives ILL for a format outside R182, log 47). -/
def execMlatch (q : R4) (ts : BitVec 5) (a : R4) (lat : Bool) (s : State) : Host.Outcome State Fault Refusal :=
  issue (.mlatch q ts a lat) q s fun r x s =>
    match s.pending r with
    | some e => s.again r x e
    | none =>
      let addr := (x.getG a).toNat
      let base : Dword := BitVec.ofNat 64 addr
      match s.shapeFor r x ts with
      | none => trapOf cELAL base
      | some h =>
        let k := shDim h 0
        let o := opSpec addr h k x.sclb.toNat
        if !matrixFmt (shFmt h) then trapOf cILL
        else if shRank h ≠ 2 ∨ k % 32 ≠ 0 ∨ k < 32 ∨ 1024 < k ∨ shDim h 1 < 16 ∨ 8192 < k * o.elem * 16 then
          trapOf cELAL base
        else match o.issueRuns.find? crosses with
          | some t => trapOf cELAL (BitVec.ofNat 64 t.1)
          | none => s.enqueueCmd r (.mlatch lat addr h x.sclb.toNat) true

/-- MLATCH_RUN (R189, R195): it waits while the buffer is FILLING, and sets it FULL. -/
def execMlatchRun (core : Nat) (s : State) : Host.Outcome State Fault Refusal :=
  let x := s.site core
  match x.w5 with
  | e :: _ =>
    match e.cmd with
    | .mlatch b addr h sclb =>
      if (x.latBuf b).st = .filling then .next (s.post (.mlatchRun core))
      else
        let o := opSpec addr h (shDim h 0) sclb
        match s.memOperands core e [o] false with
        | .inr (some t) => .next (s.cmdTrap core e t)
        | .inr none => .next (s.post (.mlatchRun core))
        | .inl (os, ps) =>
          let v := os[0]?.getD { fmt := 0, rows := [], scales := none }
          let l : Latch :=
            { st := .full, fmt := shFmt h, k := o.k, scaled := v.scales.isSome, data := v.rows.flatten, scales := (v.scales.getD []).flatten }
          .next ((((s.drawPieces ps).traffic core 2 ps false).modSite core fun x => x.setLat b l).cmdDone core e id)
    | _ => .next s
  | [] => .next s

/-! Passes (R190, R191). -/

/-- MPASS (R191). -/
def execMpass (q : R4) (dir : Dir) (lat : Bool) (s : State) : Host.Outcome State Fault Refusal :=
  issue (.mpass q dir lat) q s fun r _ s => s.enqueueCmd r (.mpass lat dir) false

/-- LATCH_PASS (R190, R195): in a core that runs, once the source is FULL and the target EMPTY the target is FILLING; then it is FULL and the source
EMPTY, also when the core has stopped meanwhile (DEDUCED, log 104). -/
def execLatchPass (core : Nat) (lat : Bool) (dir : Dir) (s : State) : Host.Outcome State Fault Refusal :=
  let x := s.site core
  match x.w5 with
  | [] => .next s
  | e :: _ =>
    let mine := match e.cmd with
      | .mpass l d => l == lat && d == dir
      | .mma _ _ _ (.lat l) _ _ passB _ => passB && e.summed && l == lat && dir == .east
      | _ => false
    let rect := match s.loadedOn core with
      | some n => (s.tst n).rect
      | none => (s.slot e.slot).rect
    let t := ringNeighbour rect core dir
    let again : State := s.post (.latchPass core lat dir)
    if !mine then .next s
    else if !e.passing then
      let src := x.latBuf lat
      let dst := (s.site t).latBuf (!lat)
      if !s.running core then .next s
      else if src.st = .full ∧ dst.st = .empty then
        let s := s.modHead core fun e => { e with passing := true }
        .next ((s.modSite t fun y => y.setLat (!lat) { src with st := .filling }).post (.latchPass core lat dir))
      else .next again
    else
      let src := x.latBuf lat
      let s := s.modSite t fun y => y.setLat (!lat) { src with st := .full }
      let s := s.modSite core fun y => y.setLat lat {}
      .next (match e.cmd with
        | .mpass .. => s.unqueue core
        | _ => s.cmdDone core e fun y => y.mergeSums e.flags e.forced)

/-! MSTO (R194, R196, R339). -/

/-- The converted elements of a tile, in order (m, n), with their flags (R165, R194). -/
def storedCodes (x : Site) (acc : Nat) (fmtc : R4) (mode : Nat) : List Nat × BitVec 6 :=
  let dst := fmtOf fmtc
  let conv (c : Nat) : FRes :=
    match x.kind acc with
    | .f48 => convert dst .f48 (ffF48.value c) mode
    | .f32 => convert dst .f32 (ffF32.value c) mode
    | .i48 => convert dst .i64 (intVal (signedOf 48 c)) mode
    | .bit => convert dst .i64 (intVal (c % 2 : Nat)) mode
    | .zero => (0, fNone)
  let rs := (List.range 256).map fun i => conv (x.elem acc (i / 16) (i % 16))
  (rs.map Prod.fst, rs.foldl (fun f r => f ||| r.2) fNone)

/-- Bytes of one stored row. -/
def rowBytes (codes : List Nat) (e m : Nat) : List Byte := ((codes.drop (16 * m)).take 16).flatMap fun c => leBytes e c

/-- FMTC values MSTO refuses (R194). -/
def fmtcBad (f : R4) : Bool := f == 13 || f == 14

/-- MSTO, store form (R194). -/
def execMsto (q : R4) (ts : BitVec 5) (sg : BitVec 3) (a : R4) (n : BitVec 2) (s : State) : Host.Outcome State Fault Refusal :=
  issue (.msto q ts sg a n) q s fun r x s =>
    match s.pending r with
    | some e => s.again r x e
    | none =>
      let sh := s.shapeFor r x ts
      let addr := x.getG a
      if fmtcBad x.fmtc || wrongFmt sh x.fmtc then trapOf cILL
      else
        let h := sh.getD 0
        let extent := 15 * shStride h 1 + 16 * fmtcBytes x.fmtc
        if sh.isNone ∨ shRank h ≠ 2 ∨ shDim h 0 < 16 ∨ shDim h 1 < 16 then trapOf cELAL (s.faultAddr r sg addr)
        else match (if sg = 0 then (mstoRuns addr.toNat h x.fmtc).find? crosses else none) with
          | some t => trapOf cELAL (BitVec.ofNat 64 t.1)
          | none =>
            let seg := x.getS sg
            if sg ≠ 0 ∧ !segOk seg addr extent .store then trapOf cSEGV (segAddr seg addr)
            else s.enqueueCmd r (.mstoMem n.toNat seg (sg == 0) addr h x.fmtc x.rmode) true

/-- MSTO, stream form (R194, R339). -/
def execMstoStream (q : R4) (n : BitVec 2) (s : State) : Host.Outcome State Fault Refusal :=
  issue (.mstoStream q n) q s fun r x s =>
    if fmtcBad x.fmtc then trapOf cILL else s.enqueueCmd r (.mstoStream n.toNat x.fmtc x.rmode) false

/-- What storing a row meets. -/
inductive RowAt where
  | pieces (ps : List Piece)
  | remote (dev : Nat) (va : Dword)
  | trap (t : TrapInfo)
  | fault (p : Park)
  | wait

/-- Resolving the 8-byte units of a row (R103, R130, R135). A TLB miss is walked at once; pages that stop it park the
issuer. -/
def State.rowAt (s : State) (core : Nat) (e : Queued) (seg : BitVec 128) (s0 : Bool) (addr n : Nat) : RowAt :=
  if s0 then
    match s.localAt core e.held addr .store with
    | .keys k => .pieces [{ pos := 0, key := k, n := n, tag := 0 }]
    | .trap c t => .trap { cause := c, taddr := t }
    | .wait => .wait
  else if segDev seg ≠ 0 then .remote (segDev seg) (segAddr seg (BitVec.ofNat 64 addr))
  else
    let d := coreDie core
    let owner := (s.slot e.slot).owner.toNat
    (List.range n).foldl (fun (r : RowAt) i =>
      match r with
      | .pieces ps =>
        let va := (segAddr seg (BitVec.ofNat 64 (addr + i))).toNat
        let leaf : Walked := match (s.die d).lookup owner va with
          | some t => .leaf t.leaf
          | none => s.walk d owner va .store
        match leaf with
        | .fault k => .fault (.fault va .store k)
        | .segv => .trap { cause := cSEGV, taddr := BitVec.ofNat 64 va }
        | .leaf t =>
          let pa := leafBase t + va % 2 ^ leafShift t
          if t.getLsbD 8 then .fault (.migrating va .store)
          else if !leafRights t .store then .fault (.fault va .store .rights)
          else if leafPlace t = 2 then .fault (.fault va .store .dupw)
          else
            let key := placeByte (leafPlace t) (leafNear t) d pa
            let tag := dramTag (leafKey t) pa
            match ps with
            | p :: rest => if p.key + p.n = key ∧ p.tag = tag then .pieces ({ p with n := p.n + 1 } :: rest)
              else .pieces ({ pos := i, key := key, n := 1, tag := tag } :: ps)
            | [] => .pieces [{ pos := i, key := key, n := 1, tag := tag }]
      | o => o) (.pieces [])

/-- The walks that resolving a row took are the die's work, and their leaves enter the TLB (R135, R282). -/
def State.rowWalks (s : State) (core : Nat) (e : Queued) (seg : BitVec 128) (s0 : Bool) (addr n : Nat) : State :=
  if s0 || segDev seg != 0 then s
  else s.touch (coreDie core) (s.slot e.slot).owner.toNat .store
    ((List.range n).map fun i => (segAddr seg (BitVec.ofNat 64 (addr + i))).toNat)

/-- Storing the rows of an MSTO from row `pushed` on, each when it can be (R194); a row for another device is out until it is answered,
and then the next goes (DESIGN CHOICE, log 79). TADDR of POIS is the start of its row (DESIGN CHOICE, log 78), and a row of narrow elements that covers a word
whole clears its mark (DESIGN CHOICE, log 98). -/
def State.mstoRows (s : State) (core : Nat) (e : Queued) (seg : BitVec 128) (s0 : Bool) (addr : Dword) (h : BitVec 256) (codes : List Nat)
    (size : Nat) (fl : BitVec 6) : Nat → State
  | 0 => s.cmdDone core e fun x => x.raise fl
  | left + 1 =>
    let m := 15 - left
    let a := addr.toNat + m * shStride h 1
    match s.rowAt core e seg s0 a (16 * size) with
    | .trap t => s.cmdTrap core e t
    | .wait => s.post (.mstoRun core)
    | .fault p =>
      if (s.slot e.slot).status = Status.parked (.matrix e.id) then s.parkOn e.slot p else s
    | .remote dev va =>
      let row : Part := { pos := 0, n := 16 * size, spot := .remote dev va, addr := va }
      if e.asked then s
      else if (s.meetsAway e.slot [row]).isSome then s.post (.mstoRun core)
      else match s.bump.askParts e.slot (s.slot e.slot).at 1 s.fresh 2 2 (.row e.id) (rowBytes codes size m) [row] with
      | none => s.cmdTrap core e { cause := cRWR, taddr := va, reason := 2 }
      | some s' => s'.modHead core fun e => { e with asked := true }
    | .pieces ps =>
      if (s.slot e.slot).unperformed ps || s.queuedStores (some (coreDie core)) ps then s.post (.mstoRun core)
      else if ps.any (s.storePoisoned ps) then
        s.cmdTrap core e { cause := cPOIS, taddr := if s0 then BitVec.ofNat 64 a else segAddr seg (BitVec.ofNat 64 a) }
      else
        let data := rowBytes codes size m
        let s := (s.rowWalks core e seg s0 a (16 * size)).storePieces ps data
        let s := s.accessed e.slot 2 false true ps
        let e := { e with pushed := m + 1 }
        (s.modHead core fun _ => e).mstoRows core e seg s0 addr h codes size fl left

/-- A row of an MSTO is stored at its device: the command goes on (R194, R264). -/
def State.rowStored (s : State) (q : Request) (id : Nat) : State :=
  let core := placeKey q.slot.place
  match (s.site core).w5 with
  | e :: _ =>
    if e.id = id ∧ e.asked then (s.modHead core fun e => { e with asked := false, pushed := e.pushed + 1 }).post (.mstoRun core) else s
  | [] => s

/-- A row of an MSTO was refused or lost: the command traps, with none of its flags (R180, R194, R264, R265). -/
def State.rowFails (s : State) (q : Request) (id reason : Nat) : State :=
  let core := placeKey q.slot.place
  match (s.site core).w5 with
  | e :: _ => if e.id = id ∧ e.asked then s.cmdTrap core e { cause := cRWR, taddr := q.addr, reason := reason } else s
  | [] => s

/-- Entries of a stream MSTO (R339): 8 / e elements each, little-endian. -/
def streamEntries (codes : List Nat) (size : Nat) : List Dword :=
  let bs := codes.flatMap fun c => leBytes size c
  (List.range (bs.length / 8)).map fun i => BitVec.ofNat 64 (ofLe ((bs.drop (8 * i)).take 8))

/-- Entries enter w6 while it has room (R339). -/
def State.streamPush (s : State) (core : Nat) : List Dword → Nat → State × Nat
  | [], n => (s, n)
  | v :: t, n => if 8 ≤ ((s.site core).queue 6).length then (s, n) else (s.enqueue core 6 v).streamPush core t (n + 1)

/-- MSTO_RUN (R194, R339): the flags of the conversion merge when the command completes; FPX is never raised. -/
def execMstoRun (core : Nat) (s : State) : Host.Outcome State Fault Refusal :=
  match (s.site core).w5 with
  | [] => .next s
  | e :: _ =>
    match e.cmd with
    | .mstoMem acc seg s0 addr h fmtc mode =>
      let x := s.slot e.slot
      if x.status ≠ Status.parked (.matrix e.id) then .next s
      else
        let r := storedCodes (s.site core) acc fmtc mode
        .next (s.mstoRows core e seg s0 addr h r.1 (fmtcBytes fmtc) r.2 (16 - e.pushed))
    | .mstoStream acc fmtc mode =>
      let r := storedCodes (s.site core) acc fmtc mode
      let es := streamEntries r.1 (fmtcBytes fmtc)
      let (s, n) := s.streamPush core (es.drop e.pushed) 0
      let sent := e.pushed + n
      if es.length ≤ sent then .next ((s.modSlot e.slot fun x => x.raise r.2).unqueue core)
      else .next ((s.modHead core fun e => { e with pushed := sent }).post (.mstoRun core))
    | _ => .next s

end Sys2Proof.Machine
end

