-- ==== Sys2Proof/Machine/System.lean ====
section
/-! DEFINITION. Control registers, segment registers, time and votes (R71, R72, R89-R92, R129, R219, R279, R287, R290, R360,
R366, R381). -/
namespace Sys2Proof.Machine

/-! Control registers. -/

/-- A control register by number (R71, R287, R290); none when the number is not listed. -/
def Slot.creg (x : Slot) (r : SlotRef) (n : Nat) : Option Dword :=
  let z {w : Nat} (v : BitVec w) : Option Dword := some (v.zeroExtend 64)
  match n with
  | 0x000 => some (BitVec.ofNat 64 (slotId r))
  | 0x001 => z x.rect
  | 0x002 => some (BitVec.ofNat 64 (x.streamed.toNat + 2 * x.spawned.toNat))
  | 0x003 => z x.owner
  | 0x010 => z x.fmta
  | 0x011 => z x.fmtb
  | 0x012 => z x.fmtc
  | 0x013 => z x.scla
  | 0x014 => z x.sclb
  | 0x015 => z x.srg
  | 0x016 => z x.prom
  | 0x017 => z x.rnd
  | 0x018 => z x.flags
  | 0x019 => z x.hstat
  | 0x01A => some x.fprm
  | 0x020 => z x.tvec
  | 0x021 => z x.tcause
  | 0x022 => some x.taddr
  | 0x023 => z x.tepc
  | 0x024 => some x.tinfo
  | 0x025 => z x.ten
  | 0x026 => z x.wsp
  | 0x027 => z x.wlim
  | 0x030 => z x.acct
  | 0x040 => if isCtl r.place then z x.cfs else none
  | 0x041 => if isCtl r.place then some x.cfb else none
  | 0x042 => if isCtl r.place then z x.tcfs else none
  | 0x043 => if isCtl r.place then some x.tcfb else none
  | _ => none

/-- Bits of TINFO that SETC stores (R260). -/
def tinfoMask : Dword := 0xFFFF00007FFFFFFF
/-- Bits of CFB that SETC stores (R290). -/
def cfbMask : Dword := 0x0000FFFFFFFF0000

/-- Writing a control register (R71, R72, R287, R290): the slot, or the cause of the trap. SETC of a read-only register
in a control core raises ILL (log 27). -/
def Slot.setCreg (x : Slot) (r : SlotRef) (n : Nat) (v : Dword) : Slot ⊕ Nat :=
  let ctl := isCtl r.place
  match n with
  | 0x003 => if ctl then .inl { x with owner := v.extractLsb' 0 16 } else .inr cILL
  | 0x010 => .inl { x with fmta := v.extractLsb' 0 4 }
  | 0x011 => .inl { x with fmtb := v.extractLsb' 0 4 }
  | 0x012 => .inl { x with fmtc := v.extractLsb' 0 4 }
  | 0x013 => .inl { x with scla := v.extractLsb' 0 20 }
  | 0x014 => .inl { x with sclb := v.extractLsb' 0 20 }
  | 0x015 => .inl { x with srg := v.extractLsb' 0 3 }
  | 0x016 => .inl { x with prom := v.extractLsb' 0 6 }
  | 0x017 => .inl { x with rnd := v.extractLsb' 0 2 }
  | 0x018 => .inl { x with flags := v.extractLsb' 0 6 }
  | 0x019 => .inl { x with hstat := v.extractLsb' 0 3 }
  | 0x01A => .inl { x with fprm := v }
  | 0x020 => .inl { x with tvec := v.extractLsb' 0 16 &&& 0xFFFC }
  | 0x021 => .inl { x with tcause := v.extractLsb' 0 8 }
  | 0x022 => .inl { x with taddr := v }
  | 0x023 => .inl { x with tepc := v.extractLsb' 0 16 }
  | 0x024 => .inl { x with tinfo := v &&& tinfoMask }
  | 0x025 => .inl { x with ten := v.extractLsb' 0 7 }
  | 0x026 => .inl { x with wsp := v.extractLsb' 0 16 &&& 0xFFC0 }
  | 0x027 => .inl { x with wlim := v.extractLsb' 0 16 &&& 0xFFC0 }
  | 0x030 => .inr (if isMesh r.place then cPRIV else cILL)
  | 0x040 => if ctl then .inl { x with cfs := v.extractLsb' 0 3 } else .inr cILL
  | 0x041 => if ctl then .inl { x with cfb := v &&& cfbMask } else .inr cILL
  | 0x042 => if ctl then .inl { x with tcfs := v.extractLsb' 0 3 } else .inr cILL
  | 0x043 => if ctl then .inl { x with tcfb := v &&& cfbMask } else .inr cILL
  | _ => .inr cILL

/-- Registers a method may use: RND and FLAGS (R219). -/
def methodReg (n : Nat) : Bool := n == 0x017 || n == 0x018

/-- GETC (R71, R72, R219, R328). -/
def execGetc (q : R4) (n : BitVec 11) (d : R4) (s : State) : Host.Outcome State Fault Refusal :=
  issue (.getc q n d) q s fun r x s =>
    if isCarousel r.place && !methodReg n.toNat then trapOf cPRIV
    else match x.creg r n.toNat with
      | some v => doneG s r d v
      | none => trapOf cILL

/-- SETC (R71, R72, R219, R360). -/
def execSetc (q : R4) (n : BitVec 11) (a : R4) (s : State) : Host.Outcome State Fault Refusal :=
  issue (.setc q n a) q s fun r x s =>
    if isCarousel r.place && !methodReg n.toNat then trapOf cPRIV
    else match x.setCreg r n.toNat (x.getG a) with
      | .inl y => .done (s.setSlot r y)
      | .inr c => trapOf c

/-! Segment registers. -/

/-- Descriptor i of a place's store (R127, R288). -/
def State.descriptor (s : State) (p i : Nat) : BitVec 128 := BitVec.ofNat 128 (s.num (segStoreKey p (16 * i)) 16)

/-- A descriptor that SETS refuses (R129). -/
def descBad (d : BitVec 128) (mesh : Bool) : Bool :=
  d.getLsbD 99 && (d.extractLsb' 101 27 != 0 || d.extractLsb' 0 6 != 0 ||
    (d.getLsbD 100 && (mesh || d.extractLsb' 48 16 != 0)) || 2 ^ 48 < segBase d + 64 * segLimit d)

/-- SETS (R129). -/
def execSets (q : R4) (imm : BitVec 11) (a : R4) (sn : BitVec 3) (s : State) : Host.Outcome State Fault Refusal :=
  issue (.sets q imm a sn) q s fun r x s =>
    let i := (x.getG a).toNat + imm.toNat
    if 128 ≤ i then trapOf cSEGV (BitVec.ofNat 64 i)
    else
      let d := s.descriptor (placeKey r.place) i
      if descBad d (isMesh r.place) then trapOf cSEGV (BitVec.ofNat 64 i)
      else .done (s.modSlot r fun x => x.setS sn d)

/-! Time. -/

/-- TIME (R279, R366): it parks for the I/O die's reply. -/
def execTime (q : R4) (d : R4) (s : State) : Host.Outcome State Fault Refusal :=
  issue (.time q d) q s fun r x s =>
    match x.stage with
    | .granted m => doneG s r d m
    | _ => .park (s.route (nodeOf r.place) ioNode 0 false 0 (.timeRequest r)) .time

/-- TIME_REQUEST (R279): the count and the socket's TCAL, not below the slot's last result. -/
def execTimeRequest (r : SlotRef) (s : State) : Host.Outcome State Fault Refusal :=
  let x := s.slot r
  if x.status = Status.parked .time then
    let s := s.tick
    let t := BitVec.ofNat 64 s.iod.ns + tget 0 s.iod.tcal (socketOf r.place)
    let m := if t.toNat < x.lastTime.toNat then x.lastTime else t
    .next ((s.transit ioNode (nodeOf r.place) 0 8).setSlot r { x with lastTime := m, stage := .granted m, status := .ready })
  else .next s

/-! Votes. -/

/-- A core's contribution to a vote, combined with what came from the west (R90). -/
def voteWith (all mine : Bool) (west : Option (Nat × Bool)) : Bool :=
  match west with
  | none => mine
  | some v => if all then v.2 && mine else v.2 || mine

/-- The final value turns back west at the east edge (R90). -/
def State.turnVote (s : State) (c k id : Nat) (v : Bool) : State :=
  let d := coreDie c
  (s.modDie d fun y =>
    let b := tget {} y.barkers (barkerKey c k)
    { y with barkers := tset {} y.barkers (barkerKey c k) { b with votes := b.votes ++ [(id, v, coreCol c)] } }).post
    (.voteResultArrival d (coreRow c) k)

/-- Passing a VOTE word east, before the value returns (R92); words a frame holds back go first. -/
def Slot.passVote (x : Slot) (east : Bool) (id : Nat) (v : Bool) : Slot :=
  if east then x
  else { x with out := x.out ++ x.held ++ (x.buf.take 1).map (fun w => { w with vote := some (id, v) }), held := [] }

/-- The VOTE word leaves the buffer: it has gone east and does not go again. -/
def Slot.endVote (x : Slot) : Slot :=
  ({ x with buf := x.buf.drop 1, since := 0, stage := .fresh } : Slot).consume false [] true

/-- VOTE (R89-R92, R381): the word goes east at its issue, and the final value completes it. A core whose guard is false goes
on at once after it has passed the neutral value (DESIGN CHOICE, log 64). -/
def execVote (q : R4) (all : Bool) (a d : R4) (s : State) : Host.Outcome State Fault Refusal :=
  issue (.vote q all a d) q s fun r x s =>
    match r.place with
    | .mesh c =>
      if !x.streamed then doneQ s r d (x.getQ a)
      else
        let west := match x.buf with | w :: _ => w.vote | [] => none
        let id := match west with | some w => w.1 | none => s.fresh
        let v := voteWith all (if x.getQ q then x.getQ a else all) west
        let east := x.onEast r.place
        let s := if east then s.bump.turnVote c r.k id v else s.bump
        let s := s.setSlot r (x.passVote east id v).endVote
        if x.getQ q then .park s (.vote id d) else .ended s
    | _ => doneQ s r d (x.getQ a)

/-- VOTE_RESULT_ARRIVAL (R90): a final value passes one core on its way west; the lead is the last. -/
def execVoteResultArrival (die row k : Nat) (s : State) : Host.Outcome State Fault Refusal :=
  let key := row * 8 + k
  let b := tget {} (s.die die).barkers key
  match b.votes with
  | [] => .next s
  | (id, v, col) :: rest =>
    let r := meshSlot (coreId die row col) k
    let x := s.slot r
    let s := match x.status with
      | .parked (.vote i q) => if i = id then s.setSlot r { x.setQ q v with status := .ready, since := 0 } else s
      | _ => s
    let last := col = 0 ∨ (x.status ≠ Status.free ∧ isLead x.rect (coreId die row col))
    let votes := if last then rest else (id, v, col - 1) :: rest
    let s := s.modDie die fun y => { y with barkers := tset {} y.barkers key { b with votes := votes } }
    .next (if votes = [] then s else s.post (.voteResultArrival die row k))

end Sys2Proof.Machine
end

