-- ==== Sys2Proof/Machine/Stream.lean ====
section
/-! DEFINITION. Barkers and stream words (R77-R84, R92; log 17). -/
namespace Sys2Proof.Machine

/-- Words that the lead decides (R81). -/
def isControl : Instr → Bool
  | .br .. | .jmp .. | .jmpr .. | .call .. | .ret .. | .loop .. => true
  | _ => false

/-- The barker stream of a row and slot position. -/
def State.barker (s : State) (d row k : Nat) : Barker := tget {} (s.die d).barkers (row * 8 + k)
/-- Changing a barker stream. -/
def State.modBarker (s : State) (d row k : Nat) (f : Barker → Barker) : State :=
  s.modDie d fun x => { x with barkers := tset {} x.barkers (row * 8 + k) (f (tget {} x.barkers (row * 8 + k))) }

/-- A word at an offset of a stream image, through the port TLB under the launch owner (R77). -/
inductive Streamed where
  | word (w : Word)
  | beyond
  | stall (p : Park) (post : Bool)
  | segv (va : Nat)

/-- Lines of a barker's instruction cache (R77). -/
def icacheLines : Nat := 1024

/-- A line of DRAM enters the instruction cache of a row's barker, which reads it then in a packet of 64 bytes (R77, R271, R282); a full cache gives up a line of
free choice (log 65). -/
def State.cacheLine (s : State) (d row acct line : Nat) : State :=
  let held := tget [] (s.die d).icache row
  if held.contains line then s
  else
    let full := icacheLines ≤ held.length
    let held := if full then held.eraseIdx (Config.freeNat s.draws % icacheLines) else held
    let s := if full then s.drawn 1 else s
    ((s.modDie d fun x => { x with icache := tset [] x.icache row (held ++ [line]) }).charge acct 2 64).exchange (coreId d row 0)
      (memNode (line / 2 ^ 38)) 2 0 64

/-- Looking up a stream word in the TLB, walking on a miss. The cache holds lines as memory stands: a store to the image is seen
(DESIGN CHOICE, log 65). -/
def State.streamWord (s : State) (d row : Nat) (t : Desc) (off : Nat) : Streamed × State :=
  if t.streamLen ≤ off then (.beyond, s)
  else
    let va := t.streamVA + off
    let owner := t.owner.toNat
    let miss := ((s.die d).lookup owner va).isNone
    match (if miss then s.walk d owner va .fetch else .leaf 0) with
    | .fault k => (.stall (.fault va .fetch k) true, s.walked d owner va)
    | .segv => (.segv va, s.walked d owner va)
    | .leaf e =>
      let s := if miss then (s.walked d owner va).fillTlb d owner va e else s
      match s.translate d owner va .fetch with
      | .at (.run k tag) =>
        let p : Piece := { pos := 0, key := k, n := 4, tag := tag }
        (.word (BitVec.ofNat 32 (ofLe (s.readPiece p))), (s.drawPieces [p]).cacheLine d row t.acct.toNat (k / 64 * 64))
      | .park (.fault va acc k) => (.stall (.fault va acc k) true, s)
      | .park p => (.stall p false, s)
      | _ => (.segv va, s)

/-- Words on their way, at most. -/
def barkerRoom : Nat := 16

/-- The barker waits for a page, with its record posted under the lead's slot id (R83, R140). -/
def State.barkerStall (s : State) (d row k lead : Nat) (owner : Nat) (p : Park) (post : Bool) : State :=
  let s := s.modBarker d row k fun b => { b with stall := some p }
  match p, post with
  | .fault va acc kind, true => s.pfqPost d (pfqRecord (slotId (meshSlot lead k)) false kind acc owner va)
  | _, _ => s

/-- A word that cannot be fetched: the lead raises SEGV when it reaches it (R135, R141). It stands at offset `off`; `before`
is the word0 that came before it. -/
def State.barkerFail (s : State) (d row k va : Nat) (before : List StreamWord) (off : BitVec 16) : State :=
  s.modBarker d row k fun b =>
    { b with stopped := true, sent := b.sent ++ before ++ [{ off := off, w := 0, fail := some va }] }

/-- BARKER_FETCH (R77, R82, R83): the next unit of the stream is sent east: one word, or the two of a 64-bit instruction.
After a word that the lead decides the barker waits. Past offset 0xFFFC it goes on at 0 (DESIGN CHOICE, log 62). -/
def execBarkerFetch (die row k : Nat) (s : State) : Host.Outcome State Fault Refusal :=
  let b := s.barker die row k
  match b.launch with
  | none => .next s
  | some n =>
    match (s.tst n).desc with
    | none => .next s
    | some t =>
      if b.waiting || b.stopped || b.stall.isSome || barkerRoom ≤ b.sent.length then .next s
      else
        let lead := coreId die row (coreCol (rectLo (s.tst n).rect))
        let sw (off : BitVec 16) (w : Word) (marker : Bool) : StreamWord := { off := off, w := w, marker := marker }
        let marker (off : BitVec 16) : StreamWord := sw off (BitVec.ofNat 32 t.streamLen) true
        let send (ws : List StreamWord) (f : Barker → Barker) (s : State) : State :=
          s.modBarker die row k fun b => f { b with sent := b.sent ++ ws, next := b.next + BitVec.ofNat 16 (4 * ws.length) }
        match s.streamWord die row t b.next.toNat with
        | (.beyond, s) => .next (send [marker b.next] (fun b => { b with stopped := true }) s)
        | (.stall p post, s) => .next (s.barkerStall die row k lead t.owner.toNat p post)
        | (.segv va, s) => .next (s.barkerFail die row k va [] b.next)
        | (.word w, s) =>
          if takesWord1 b.next w then
            let off1 := b.next + 4
            match s.streamWord die row t off1.toNat with
            | (.beyond, s) =>
              .next (send [sw b.next w false, marker off1] (fun b => { b with stopped := true }) s)
            | (.stall p post, s) => .next (s.barkerStall die row k lead t.owner.toNat p post)
            | (.segv va, s) => .next (s.barkerFail die row k va [sw b.next w false] off1)
            | (.word w1, s) =>
              .next (send [sw b.next w false, sw off1 w1 false]
                (fun b => { b with waiting := isControl (decodeInstr w w1) }) s)
          else .next (send [sw b.next w false] (fun b => { b with waiting := wordBytes w != 8 && isControl (decodeInstr w 0) }) s)

/-- The words a benched slot relays next (R84): a unit of its buffer. A benched lead keeps a word it has not decided. -/
def relayUnit (lead : Bool) (buf : List StreamWord) : Nat :=
  match buf with
  | [] => 0
  | a :: rest =>
    if a.fail.isSome then 0
    else if a.marker then 1
    else if takesWord1 a.off a.w then
      match rest with
      | [] => 0
      | b :: _ => if b.fail.isSome || (lead && a.dec.isNone && isControl (decodeInstr a.w b.w)) then 0 else 2
    else if lead && a.dec.isNone && wordBytes a.w != 8 && isControl (decodeInstr a.w 0) then 0
    else 1

/-- Entries of a stream buffer (R78). -/
def bufRoom : Nat := 16

/-- Words that a slot has sent east and that the next core has not taken, with that core's buffer; none at the east edge. -/
def State.eastLoad (s : State) (c k : Nat) (x : Slot) : Nat :=
  if eastEdge x.rect c then 0 else x.out.length + (s.slot (meshSlot (c + 1) k)).buf.length

/-- A benched streamed slot relays a unit for which the eastern buffer has room (R79, R84, R92); at the east edge words end,
and a VOTE turns back. -/
def State.relay (s : State) (c k : Nat) : State :=
  let r := meshSlot c k
  let x := s.slot r
  let u := relayUnit (isLead x.rect c) x.buf
  let n := if bufRoom < s.eastLoad c k x + u then 0 else u
  let ws := x.buf.take n
  let s := s.setSlot r { x with buf := x.buf.drop n, out := if eastEdge x.rect c then [] else x.out ++ ws }
  match eastEdge x.rect c, ws with
  | true, w :: _ =>
    match w.vote with
    | some (id, v) => s.turnVote c k id v
    | none => s
  | _, _ => s

/-- The words a core's stream buffer takes: from the barker at the lead, which fetches on, else from the western neighbour, as
many as it has room for (R78, R79). -/
def State.takeWords (s : State) (c k : Nat) : State :=
  let r := meshSlot c k
  let x := s.slot r
  let n := bufRoom - x.buf.length
  let d := coreDie c
  let row := coreRow c
  if isLead x.rect c then
    let sent := (s.barker d row k).sent
    if n = 0 ∨ sent = [] then s
    else ((s.modBarker d row k fun b => { b with sent := sent.drop n }).setSlot r { x with buf := x.buf ++ sent.take n }).post
      (.barkerFetch d row k)
  else
    let west := meshSlot (c - 1) k
    let out := (s.slot west).out
    (s.modSlot west fun y => { y with out := out.drop n }).modSlot r fun x => { x with buf := x.buf ++ out.take n }

/-- STREAM_WORD_ARRIVAL (R78, R79, R84): at its position a streamed slot's buffer takes what the west has sent; a benched core
first relays a unit. -/
def execStreamWordArrival (core k : Nat) (s : State) : Host.Outcome State Fault Refusal :=
  let x := s.slot (meshSlot core k)
  if !x.streamed then .next s
  else .next ((if x.status = Status.benched then s.relay core k else s).takeWords core k)

/-- Whether a streamed slot's buffer holds what it issues next, decided where a follower needs that (R78, R81). -/
def Slot.streamReady (x : Slot) (p : Place) : Bool :=
  match x.fetchStream with
  | .park _ => false
  | .ins i _ => leads x p || !isControl i || (match x.ahead with | a :: _ => a.dec.isSome | [] => false)
  | .trap .. | .far .. => true

/-- Whether a slot's next execution sends words east: none go while a frame is captured, held back or replayed. -/
def Slot.sendsEast (x : Slot) : Bool := x.hold == 0 && x.rpt.isNone && x.buf != []

/-- A streamed slot that cannot forward what it has executed, since the eastern buffer has no room for it: it executes no
further word, and the stall passes west (R79). While what it has executed fits, it executes one more (R88). -/
def State.stalled (s : State) (r : SlotRef) : Bool :=
  let x := s.slot r
  match r.place with
  | .mesh c => x.streamed && !eastEdge x.rect c && x.sendsEast && bufRoom < s.eastLoad c r.k x
  | _ => false

end Sys2Proof.Machine
end

