-- ==== Sys2Proof/Machine/Spawn.lean ====
section
/-! DEFINITION. Spawned contexts, work stealing and YIELD (R95-R98, R349, R363, R387). -/
namespace Sys2Proof.Machine

/-- The turnstile whose started launch holds a core that runs (R95). -/
def State.heldBy (s : State) (c : Nat) : Option Nat :=
  match s.loadedOn c with
  | none => none
  | some n => if (s.tst n).state == 2 && !(s.site c).revoked && (s.site c).revoking.isNone then some n else none

/-- Lowest free slot of a core that serves an owner (R95, R96); a slot whose last stores are still under way is not free yet. A core
whose context is being pre-empted serves no request (DESIGN CHOICE, log 83). -/
def State.freeSlot (s : State) (c owner : Nat) : Option Nat :=
  match s.heldBy c with
  | none => none
  | some n =>
    if (s.tst n).owner ≠ owner ∨ s.stopping c then none
    else (List.range 8).find? fun k => (s.slot (meshSlot c k)).status == Status.free && (s.slot (meshSlot c k)).relaxed.isEmpty

/-- Cores of a die that launches hold, in ascending order. -/
def State.heldCores (s : State) (d : Nat) : List Nat :=
  (s.sites.filterMap fun e => if e.1 < 8192 && coreDie e.1 == d && e.2.launch.isSome then some e.1 else none)

/-- The slot that serves a request: of the named core, or of the lowest core of the die and owner (R96). -/
def State.serverOf (s : State) (q : SpawnReq) : Option (Nat × Nat) :=
  let on (c : Nat) : Option (Nat × Nat) := (s.freeSlot c q.owner.toNat).map fun k => (c, k)
  match q.core with
  | some c => on c
  | none => (s.heldCores q.die).findSome? on

/-- A spawned slot as it starts (R71, R73, R96). -/
def spawnedSlot (t : Turnstile) (q : SpawnReq) (k : Nat) : Slot :=
  let d : SlotDesc := match t.desc with
    | some e => (e.slots[k]?).getD { entry := 0, ten := 0, wsp := 0, wlim := 0 }
    | none => { entry := 0, ten := 0, wsp := 0, wlim := 0 }
  let x : Slot :=
    { status := .ready, pc := q.entry, q := 1, spawned := true, owner := q.owner, acct := q.acct, rect := t.rect, ten := d.ten, wsp := d.wsp, wlim := d.wlim }
  (((x.setG 4 ((q.args[0]?).getD 0)).setG 5 ((q.args[1]?).getD 0)).setG 6 ((q.args[2]?).getD 0)).setG 7 ((q.args[3]?).getD 0)

/-- A request of SPAWN goes to the core that serves it, or to its die's queue, and a stolen one from die to die (R95, R97; log 16). -/
def State.spawnPacket (s : State) (src dst : Nat) : State := s.transit src dst 0 40

/-- A context starts in a slot (R96). -/
def State.startSpawn (s : State) (q : SpawnReq) (c k : Nat) : State :=
  match s.loadedOn c with
  | none => s
  | some n => s.setSlot (meshSlot c k) (spawnedSlot (s.tst n) q k)

/-- The target of SPAWN (R95): a core, or any core of a die. -/
def spawnTarget (t : Dword) : Option (Option Nat × Nat) :=
  if t.extractLsb' 13 51 = 0 then some (some t.toNat, coreDie t.toNat)
  else if t.extractLsb' 3 61 = 0x2000 then some (none, t.toNat % 8)
  else none

/-- Entries of a ready queue (R97). -/
def readyRoom : Nat := 64

/-- Owners of a die's free slots (R97). -/
def State.freeOwners (s : State) (d : Nat) : List Nat :=
  (s.heldCores d).foldl (fun l c =>
    match s.heldBy c with
    | none => l
    | some n =>
      let o := (s.tst n).owner
      if (s.freeSlot c o).isSome && !l.contains o then l ++ [o] else l) []

/-- Neighbours of a die in the interposer row ring (R97). -/
def dieNeighbours (d : Nat) : List Nat := (if d = 0 then [] else [d - 1]) ++ (if d < 7 then [d + 1] else [])

/-- A request joins a ready queue. -/
def State.enqueueSpawn (s : State) (d : Nat) (q : SpawnReq) : State := s.modDie d fun x => { x with ready := x.ready ++ [q] }

/-- A die with a free slot and an empty queue asks a neighbour (R97); a neighbour without a stealable request would answer
with nothing, and is not asked. -/
def State.askSteal (s : State) (thief victim : Nat) : State :=
  if (s.die thief).ready = [] ∧ s.freeOwners thief ≠ [] ∧ (s.die victim).ready.any SpawnReq.stealable then s.post (.stealRequest thief victim)
  else s

/-- Every 64 cycles the dies ask their neighbours (R97). -/
def State.stealRound (s : State) : State :=
  if s.cycle % 8 ≠ 0 then s
  else (List.range 8).foldl (fun s d => (dieNeighbours d).foldl (fun s v => s.askSteal d v) s) s

/-- Index of the oldest request of a queue that a free slot can serve. -/
def State.firstServed (s : State) : List SpawnReq → Option (SpawnReq × Nat × Nat)
  | [] => none
  | q :: t => match s.serverOf q with
    | some (c, k) => some (q, c, k)
    | none => s.firstServed t

/-- A die's free slots take the oldest requests of its queue that they can serve (R97); the first argument bounds the requests. -/
def State.serveQueue (s : State) (die : Nat) : Nat → State
  | 0 => s
  | more + 1 => match s.firstServed (s.die die).ready with
    | some (q, c, k) => ((s.modDie die fun x => { x with ready := x.ready.erase q }).startSpawn q c k).serveQueue die more
    | none => s

/-- Freed slots go to the requests that wait for them (R97, R99). -/
def State.serveReady (s : State) (die : Nat) : State := s.serveQueue die (s.die die).ready.length

/-- SPAWN (R95, R96, R363): requests that wait for a slot go before it. -/
def execSpawn (q : R4) (steal : Bool) (b a : R4) (s : State) : Host.Outcome State Fault Refusal :=
  issue (.spawn q steal b a) q s fun r x s =>
    let e := x.getG b
    if e.extractLsb' 16 48 ≠ 0 ∨ e.extractLsb' 0 2 ≠ 0 then trapOf cILL
    else match spawnTarget (x.getG a) with
      | none => trapOf cILL
      | some (core, die) =>
        if core.isSome && steal then trapOf cILL
        else if !x.drained 1 then .park s (.drainRelaxed 1)
        else
          let mine (c : Nat) : Bool := !s.dead c && match s.loadedOn c with
            | some n => (s.tst n).owner == x.owner.toNat
            | none => false
          let lost := match core with | some c => !mine c | none => false
          if lost then doneQ s r 15 false
          else
            let rq : SpawnReq :=
              { core := core, die := die, entry := e.extractLsb' 0 16, owner := x.owner, acct := x.acct, args := [x.getG 4, x.getG 5, x.getG 6, x.getG 7], stealable := steal }
            let s := s.serveReady die
            match s.serverOf rq with
            | some (c, k) => doneQ ((s.spawnPacket (nodeOf r.place) c).startSpawn rq c k) r 15 true
            | none =>
              if readyRoom ≤ (s.die die).ready.length then .park s (.spawnFull die)
              else doneQ ((s.spawnPacket (nodeOf r.place) (gate die)).enqueueSpawn die rq) r 15 true

/-- Whether a free slot of a die still has stores under way. -/
def State.drainingSlots (s : State) (d : Nat) : Bool :=
  (s.heldCores d).any fun c => (coreSlots c).any fun r => (s.slot r).status == Status.free && !(s.slot r).relaxed.isEmpty

/-- SPAWN_SERVE (R97): freed slots take the oldest requests they can serve. -/
def execSpawnServe (die : Nat) (s : State) : Host.Outcome State Fault Refusal :=
  let s := s.serveReady die
  .next (if s.drainingSlots die then s.post (.spawnServe die) else s)

/-- STEAL_REQUEST (R97): it carries the owners of the free slots. -/
def execStealRequest (thief victim : Nat) (s : State) : Host.Outcome State Fault Refusal :=
  let owners := s.freeOwners thief
  .next (if (s.die thief).ready = [] ∧ owners ≠ [] then
      (s.transit (gate thief) (gate victim) 0 (2 * owners.length)).post (.stealResponse thief victim owners)
    else s)

/-- STEAL_RESPONSE (R97): the victim's oldest stealable request of one of the owners is served on the thief die. -/
def execStealResponse (thief victim : Nat) (owners : List Nat) (s : State) : Host.Outcome State Fault Refusal :=
  match (s.die victim).ready.find? fun q => q.stealable && owners.contains q.owner.toNat with
  | none => .next s
  | some q =>
    let s := (s.modDie victim fun x => { x with ready := x.ready.erase q }).spawnPacket (gate victim) (gate thief)
    let q := { q with die := thief }
    let s := s.serveReady thief
    .next (match s.serverOf q with
      | some (c, k) => s.startSpawn q c k
      | none => s.enqueueSpawn thief q)

/-- Whether a copy of a slot still stands in its core's queue (R98). -/
def State.copyQueued (s : State) (r : SlotRef) : Bool :=
  (s.site (placeKey r.place)).w4.any fun id => s.copies.any fun c => c.id == id && c.slot == r

/-- QUIT (R98, R349): a spawned context drains and its slot becomes free. -/
def execQuit (q : R4) (s : State) : Host.Outcome State Fault Refusal :=
  issue (.quit q) q s fun r x s =>
    if !x.spawned then trapOf cPRIV
    else if !x.relaxed.isEmpty || s.copyQueued r then .park s .quitDrain
    else
      let s := ((s.leaveResv r).endSpawned (placeKey r.place) r.k).setSlot r {}
      .ended (match dieOf r.place with
        | some d => s.post (.spawnServe d)
        | none => s)

/-- Whether a waiting context of the same class or a higher one overlaps a loaded one (R387). -/
def State.rival (s : State) (n : Nat) : Bool :=
  s.waitingList.any fun m => (s.tst m).cls ≤ (s.tst n).cls && overlaps (s.tst m) (s.tst n)

/-- YIELD (R387): with a rival the context's quantum ends, and the slot parks until its context has been pre-empted; it goes on
after the instruction at the restore, and only then does a streamed YIELD go east (R79). -/
def execYield (q : R4) (s : State) : Host.Outcome State Fault Refusal :=
  issue (.yield q) q s fun r _ s =>
    match r.place with
    | .mesh c =>
      match s.loadedOn c with
      | none => .done s
      | some n =>
        if !s.rival n then .done s
        else
          .park (match s.ctx n with
            | some k => if k.expired then s else (s.modCtx n fun k => { k with expired := true }).schedule
            | none => s) .yield
    | _ => .done s

end Sys2Proof.Machine
end

