-- ==== Sys2Proof/Machine/Launch.lean ====
section
/-! DEFINITION. Turnstiles, loading, scheduling, pre-emption and restore (R18, R19, R73, R74, R76, R104, R128, R246-R258,
R266, R310, R319, R321, R389). -/
namespace Sys2Proof.Machine

/-! The launch descriptor (R246). -/

/-- 64-bit words of a descriptor, read under key slot 0 (R288). -/
def State.descWord (s : State) (pa off : Nat) : Dword := BitVec.ofNat 64 (s.physNum (pa + off) 8)

/-- The descriptor at a physical address. -/
def State.readDesc (s : State) (pa : Nat) : Desc :=
  let w (off : Nat) : Dword := s.descWord pa off
  let pa48 (off : Nat) : Nat := (w off).toNat % 2 ^ 48
  let len := (w 16).toNat / 2 ^ 48
  { owner := (w 0).extractLsb' 0 16
    acct := (w 0).extractLsb' 16 8
    cls := (w 0).toNat / 2 ^ 24 % 4
    gate := (w 0).toNat / 2 ^ 32 % 256
    storePA := pa48 8
    streamVA := pa48 16
    streamLen := 4 * (if len = 0 then 16384 else len)
    logPA := pa48 24
    logN := (w 24).toNat / 2 ^ 48 % 32
    payPA := pa48 32
    payVA := pa48 40
    segPA := pa48 48
    bankPA := pa48 56
    ctxPA := pa48 64
    launched := (w 72).extractLsb' 0 8
    streamed := (w 72).extractLsb' 8 8
    roles := (w 72).extractLsb' 16 16
    slots := (List.range 8).map fun k =>
      { entry := (w (128 + 24 * k)).extractLsb' 0 16
        ten := (w (136 + 24 * k)).extractLsb' 0 7
        wsp := (w (144 + 24 * k)).extractLsb' 0 16
        wlim := (w (144 + 24 * k)).extractLsb' 16 16 } }

/-- Whether a descriptor breaks a range, alignment or zero rule, or launches no slot (R246). -/
def State.descBad (s : State) (pa : Nat) : Bool :=
  let w (off : Nat) : Dword := s.descWord pa off
  let d := s.readDesc pa
  let top (off : Nat) : Bool := (w off).extractLsb' 48 16 != 0
  pa % 64 != 0 || dramTop < pa + 320 ||
  (w 0).extractLsb' 26 6 != 0 || (w 0).extractLsb' 40 24 != 0 || d.gate == 0 ||
  top 8 || (d.streamed != 0 && 16384 ≤ (w 16).toNat / 2 ^ 48) ||
  (w 24).extractLsb' 53 11 != 0 || d.logPA % 2 ^ 16 != 0 || d.logN < 8 || 16 < d.logN ||
  top 32 || d.payPA % 2 ^ 16 != 0 || top 40 || top 48 || top 56 || top 64 || d.ctxPA % 2 ^ 16 != 0 ||
  (w 72).extractLsb' 32 32 != 0 || d.launched == 0 || d.streamed &&& ~~~d.launched != 0 ||
  ((List.range 6).any fun i => w (80 + 8 * i) != 0) ||
  (List.range 8).any fun k =>
    (w (128 + 24 * k)).extractLsb' 0 2 != 0 || (w (128 + 24 * k)).extractLsb' 16 48 != 0 ||
    (w (136 + 24 * k)).extractLsb' 32 32 != 0 ||
    (w (144 + 24 * k)).extractLsb' 0 6 != 0 || (w (144 + 24 * k)).extractLsb' 16 6 != 0 || (w (144 + 24 * k)).extractLsb' 32 32 != 0

/-- Whether the bank-image table of a descriptor breaks the range of its lengths, or is no DRAM (R246). -/
def State.tableBad (s : State) (table : Nat) : Bool :=
  !inDram table 128 || (List.range 8).any fun k => 65536 < s.physNum (table + 16 * k + 8) 8

/-! ARM (R248, R249). -/

/-- Rows of a rectangle. -/
def rectRows (w : Word) : List Nat :=
  (List.range (coreRow (rectHi w) + 1 - coreRow (rectLo w))).map fun i => coreRow (rectLo w) + i

/-- Whether two launches ask one barker for one slot position (R77). -/
def streamsMeet (ra rb : Word) (sa sb : Byte) : Bool :=
  coreDie (rectLo ra) == coreDie (rectLo rb) && sa &&& sb != 0 && (rectRows ra).any (rectRows rb).contains

/-- Turnstiles that hold, but for one (R249). -/
def State.otherTsts (s : State) (i : Nat) : Table Turnstile := s.turnstiles.filter fun e => e.1 != i && e.2.state != 0

/-- ERR of an ARM as far as the turnstiles, the rectangle and the 320 bytes of the descriptor tell (R249). -/
def State.armEarly (s : State) (i : Nat) (r : Word) (pa : Nat) : Nat :=
  let d := s.readDesc pa
  if (s.tst i).state ≠ 0 then 1
  else if (rectCores r).any s.dead then 2
  else if (s.otherTsts i).any fun e => match e.2.desc with
    | some o => streamsMeet r e.2.rect d.streamed o.streamed
    | none => false then 3
  else if s.descBad pa then 4
  else 0

/-- ERR of an ARM (R249); the bank-image table is read last, since its lengths are part of the descriptor's ranges (R246). -/
def State.armErr (s : State) (i : Nat) (r : Word) (pa tag : Nat) : Nat :=
  if s.armEarly i r pa ≠ 0 then s.armEarly i r pa
  else if s.tableBad (s.readDesc pa).bankPA then 4
  else if (s.otherTsts i).any fun e => e.2.tag == tag then 5
  else 0

/-- The address at which ARM's read of the bank-image table finds nothing (R21). -/
def State.armSegv (s : State) (i : Nat) (r : Word) (pa : Nat) : Option Nat :=
  let t := (s.readDesc pa).bankPA
  if s.armEarly i r pa = 0 ∧ !inDram t 128 ∧ !isMmio t then some t else none

/-- The bytes of a launch descriptor in DRAM, as one load under key slot 0 reads them (R288, R310). -/
def descPieces (pa : Nat) : List Piece :=
  if !inDram pa 320 then [] else (List.range 5).map fun k => { pos := 64 * k, key := hashKey (pa + 64 * k), n := 64, tag := dramTag 0 (pa + 64 * k) }

/-- What ARM's reads change: errors are corrected and lines counted (R144, R282). -/
def State.armReads (s : State) (i : Nat) (r : Word) (pa : Nat) : State :=
  let t := (s.readDesc pa).bankPA
  let early := s.armEarly i r pa
  let s := if inDram pa 320 then (s.drawPieces (descPieces pa)).ownLines ioNode false pa 320 else s
  if early = 0 ∧ inDram t 128 then s.ownLines ioNode false t 128 else s

/-- ARM's effect: ERR, and the turnstile when it is accepted (R249, R310). -/
def State.armTst (s : State) (i : Nat) (r : Word) (pa tag : Nat) : State :=
  let e := s.armErr i r pa tag
  let d := s.readDesc pa
  let s := s.armReads i r pa
  if e ≠ 0 then s.modTst i fun t => { t with err := e }
  else s.modTst i fun _ => { state := 1, gate := d.gate, tag := tag, rect := r, desc := some d }

/-- Operands that ARM refuses with ILL (R249). -/
def armIll (i r : Dword) : Bool :=
  1024 ≤ i.toNat || r.extractLsb' 32 32 != 0 || !rectOk (r.extractLsb' 0 32)

/-- ARM (R21, R248, R249, R310): the descriptor is read within the step, once the slot's earlier stores to it are out of the
way; a physical address where nothing is, of the descriptor or of its bank-image table, raises SEGV. -/
def execArm (q : R4) (c b a : R4) (tag : Word) (s : State) : Host.Outcome State Fault Refusal :=
  issue (.arm q c b a tag) q s fun r x s =>
    let i := x.getG a
    let w := (x.getG b).extractLsb' 0 32
    let pa := x.getG c
    if armIll i (x.getG b) then trapOf cILL
    else if dramTop < pa.toNat + 320 && !isMmio pa.toNat then trapOf cSEGV pa
    else if x.unperformed (descPieces pa.toNat) || s.queuedStores (dieOf r.place) (descPieces pa.toNat) then
      .park s (.egress (hashKey pa.toNat) 320)
    else if (descPieces pa.toNat).any s.piecePoisoned then trapOf cPOIS pa
    else match s.armSegv i.toNat w pa.toNat with
    | some t => trapOf cSEGV (BitVec.ofNat 64 t)
    | none => doneQ (s.armTst i.toNat w pa.toNat tag.toNat) r 15 (s.armErr i.toNat w pa.toNat tag.toNat = 0)

/-- Penvis arms a launch that it has loaded, in its rectangle (R254): with the turnstile and the tag of its source, and unless a host
has the arming policy (R293). A launch that was refused is armed by nobody here (R298). -/
def State.armLoaded (s : State) (p : LaunchPlan) : State :=
  match p.arm, s.planOf p.store with
  | some a, some l =>
    let i := a.index.toNat
    let pa := a.desc.toNat
    if s.iod.duty.getLsbD 4 || armIll a.index (l.plan.rect.setWidth 64) || (descPieces pa).any s.piecePoisoned ||
      (s.armSegv i l.plan.rect pa).isSome then s
    else s.armTst i l.plan.rect pa a.tag.toNat
  | _, _ => s

/-- Penvis serves the request to load a launch (R254, R298): one that stands loaded is only armed (log 76). -/
def State.loadAndArm (s : State) (p : LaunchPlan) : State :=
  (if (s.planOf p.store).isSome then s else s.loadLaunch p).armLoaded p

/-! Tagged messages and firings (R250, R251). -/

/-- What a SENDT sent is recorded when the I/O die accepts it; its sender goes on (R359). -/
def State.acceptTagged (s : State) (m : Tagged) : State :=
  if m.device ≠ 0 then s
  else
    let r := taggedSlot m
    let x := s.slot r
    if x.status = Status.parked .sendt then
      let e : Sent := { id := s.fresh, slot := r, dst := 0, kind := .tagged m.tag, tepc := x.at, owner := m.owner, ctx := s.ctxOf r }
      ({ s.bump with sends := s.sends ++ [e] } : State).complete r 2 id
    else s

/-- The record of a tagged message of this package. -/
def State.taggedSent (s : State) (m : Tagged) : Option Sent :=
  if m.device ≠ 0 then none else s.sends.find? fun e => e.slot == taggedSlot m && e.kind == .tagged m.tag

/-- A tagged message is counted, so its record is done with. -/
def State.taggedDone (s : State) (m : Tagged) : State :=
  match s.taggedSent m with
  | some e => s.sentDone e.id
  | none => s

/-- A tagged message is refused (R250, R264): the fault log holds it, with the tag when no turnstile takes it, else with its address,
and its sender is told. -/
def State.refuseTagged (s : State) (m : Tagged) (kind : Nat) : State :=
  let s := s.faultLog m.device m.owner kind (if kind = 4 then m.tag else m.addr)
  if m.device ≠ 0 then s.answer m.device 8 m.tag 0 0 0 m.owner []
  else match s.taggedSent m with
    | some e => (s.sentDone e.id).noTarget e m.tag
    | none => s

/-- A firing (R251): the launch becomes a context at its first; the message goes to mb15 of the origin core. -/
def State.fire (s : State) (n : Nat) : State :=
  let t := s.tst n
  match t.desc with
  | none => s
  | some d =>
    let msg : Message :=
      { header := BitVec.ofNat 64 (0x02 + n * 2 ^ 8 + d.gate * 2 ^ 24 + t.fires % 2 ^ 28 * 2 ^ 32)
        payload := BitVec.ofNat 64 (d.payVA + 65536 * (t.fires % 4)) }
    let first := t.state == 1
    let c : Context := { waitingSince := s.fresh }
    let s := s.bump.modTst n fun t =>
      { t with count := 0, out := t.out + 1, fires := t.fires + 1, state := 2, ctx := if first then some c else t.ctx }
    if !first then s.partMail ioNode (originOf t.rect) d.owner.toNat 15 msg
    else if s.mayEnter n then (s.modTst n fun t => { t with firings := [msg] }).schedule
    else (s.logItem n (mailItem (originOf t.rect) 15 msg)).schedule

/-- Bytes of an entry of a firing block (R251). -/
def firingEntry (m : Tagged) (time : Nat) : List Byte :=
  leBytes 8 (m.payload.length + m.device % 2 ^ 16 * 2 ^ 8 + (if m.device = 0 then m.sender % 2 ^ 16 * 2 ^ 24 else 0)) ++
    leBytes 8 time ++ m.payload ++ List.replicate (240 - m.payload.length) 0

/-- A tagged message that came at a time is counted (R251). -/
def State.countTagged (s : State) (n : Nat) (m : Tagged) (time : Nat) : State :=
  let t := s.tst n
  match t.desc with
  | none => s
  | some d =>
    let s := (s.taggedDone m).physWrite ioNode (s.ownerKey d.owner.toNat) (d.payPA + 65536 * (t.fires % 4) + 256 * t.count) (firingEntry m time)
    let s := s.modTst n fun t => { t with count := t.count + 1 }
    if t.count + 1 = d.gate then s.fire n else s

/-- The turnstile that counts a tagged message (R250). -/
def State.taggedFor (s : State) (m : Tagged) : Option Nat :=
  (s.turnstiles.find? fun e => (e.2.state == 1 || e.2.state == 2) && e.2.tag == m.tag && e.2.owner == m.owner).map Prod.fst

/-- TAGGED_MESSAGE (R250, R251, R277, R282, R359). A fabric sender's acknowledgement leaves when the I/O die accepts the message. -/
def execTaggedMessage (msg : Tagged) (s : State) : Host.Outcome State Fault Refusal :=
  let s := if msg.device ≠ 0 then s.cameIn (s.iod.portOf msg.device) msg.payload.length 0 else s.acceptTagged msg
  if 240 < msg.payload.length then .next (s.refuseTagged msg 6)
  else match s.taggedFor msg with
    | none => .next (s.refuseTagged msg 4)
    | some n =>
      let s := if msg.device ≠ 0 then s.answer msg.device 7 msg.tag 0 0 0 msg.owner [] else s
      let s := s.tick
      if 4 ≤ (s.tst n).out ∨ (s.tst n).held ≠ [] then .next (s.modTst n fun t => { t with held := t.held ++ [(msg, s.iod.ns)] })
      else .next (s.countTagged n msg s.iod.ns)

/-- TURNSTILE_COUNT_RESUME (R251): below four firings the oldest waiting message is counted. -/
def execTurnstileCountResume (n : Nat) (s : State) : Host.Outcome State Fault Refusal :=
  let t := s.tst n
  match t.held with
  | [] => .next s
  | (m, time) :: rest =>
    if 4 ≤ t.out ∨ t.state = 3 then .next s
    else
      let s := (s.modTst n fun t => { t with held := rest }).countTagged n m time
      .next (if rest = [] then s else s.post (.turnstileCountResume n))

/-! Loading (R253). -/

/-- Predicates of a launched slot at the first firing (R73). -/
def launchPredicates (rect : Word) (c : Nat) : BitVec 16 :=
  let lo := rectLo rect
  let hi := rectHi rect
  BitVec.ofNat 16 (1 + (coreRow c == coreRow hi).toNat * 2 ^ 10 + (coreRow c == coreRow lo).toNat * 2 ^ 11 +
    (coreCol c == coreCol lo).toNat * 2 ^ 12 + (coreCol c == coreCol hi).toNat * 2 ^ 13 + (c == lo).toNat * 2 ^ 14)

/-- A launched slot at the first firing (R71, R73, R74). -/
def launchedSlot (t : Turnstile) (d : Desc) (c k : Nat) : Slot :=
  let e : SlotDesc := (d.slots[k]?).getD { entry := 0, ten := 0, wsp := 0, wlim := 0 }
  { status := .ready, pc := e.entry, q := launchPredicates t.rect c, streamed := d.streamed.getLsbD k, owner := d.owner, acct := d.acct
    rect := t.rect, ten := e.ten, wsp := e.wsp, wlim := e.wlim }

/-- An owner change of a bank refuses its queued claims and clears its words and REVOKED (R104, R125). -/
def State.takeBank (s : State) (b : Nat) (owner : BitVec 16) : State :=
  if (s.bank b).owner = owner then s
  else
    let s := s.refuseQueued b 4
    let s := { s with
      mem := s.mem.filter fun c => !inBank b c.1
      poison := s.poison.filter fun c => !inBank b c.1
      wrong := s.wrong.filter fun c => !inBank b c.1 }
    s.modBank b fun k => { k with owner := owner, revoked := false }

/-- The bank image of window w (R246). -/
def State.bankImage (s : State) (d : Desc) (w : Nat) : Option (Nat × Nat) :=
  let n := Nat.min 65536 (s.physNum (d.bankPA + 16 * w + 8) 8)
  if n = 0 then none else some (s.physNum (d.bankPA + 16 * w) 8 % 2 ^ 48, n)

/-- A free site bank is placed at a load: no grant, so GEN stays and nothing lands (R104, R123). -/
def State.placeBank (s : State) (b : Nat) (c : Claim) : State :=
  let k := s.bank b
  let e : Entry := { bank := b, att := true, rd := true, wr := true, owner := k.owner, gen := k.gen }
  ((s.setEntry c.core c.w e).modBank b fun k =>
    { k with att := true, fallow := false, entering := false, win := c.w, core := some c.core, landing := none }).writeImage b c

/-- Window w of a core at a load (R104, R389). -/
def State.loadWindow (s : State) (d : Desc) (core w : Nat) : State :=
  let b := w * 2 ^ 13 + core
  let k := s.bank b
  let c : Claim := { core := core, w := w, owner := d.owner.toNat, ctx := (s.site core).launch, image := s.bankImage d w }
  if !k.att && k.reserved.isNone && k.drain.isNone && !k.clearing then (s.takeBank b d.owner).placeBank b c
  else (s.setEntry core w { bank := b, clm := true }).takeClaim b c

/-- Loading one core (R70, R71, R73, R74, R104, R127). -/
def State.loadCore (s : State) (n : Nat) (t : Turnstile) (d : Desc) (core : Nat) : State :=
  let s := s.setSite core { launch := some n, outbound := (s.site core).outbound }
  let s := (s.setBytes (storeKey core 0) (s.physBytes d.storePA 65536)).ownLines core false d.storePA 65536
  let s := (s.setBytes (segStoreKey core 0) (s.physBytes d.segPA 2048)).ownLines core false d.segPA 2048
  let s := (List.range 8).foldl (fun s w => s.loadWindow d core w) (s.ownLines core false d.bankPA 128)
  (List.range 8).foldl (fun s k =>
    if d.launched.getLsbD k then s.setSlot (meshSlot core k) (launchedSlot t d core k)
    else s.setSlot (meshSlot core k) {}) s

/-- Rows and slot positions of a launch's streams. -/
def streamKeys (t : Turnstile) (d : Desc) : List (Nat × Nat) :=
  (rectRows t.rect).flatMap fun row => ((List.range 8).filter fun k => d.streamed.getLsbD k).map fun k => (row, k)

/-- The barkers of a launch start (R77). -/
def State.startBarkers (s : State) (n : Nat) (t : Turnstile) (d : Desc) : State :=
  (streamKeys t d).foldl (fun s e =>
    let entry := match d.slots[e.2]? with | some x => x.entry | none => 0
    (s.modBarker t.die e.1 e.2 fun _ => { launch := some n, next := entry }).post (.barkerFetch t.die e.1 e.2)) s

/-- Load and restore time is charged to the account: one rotation for each slot position, a free number of times (R255). -/
def State.chargeLoad (s : State) (t : Turnstile) (d : Desc) : State :=
  (s.charge d.acct.toNat 0 (8 * (rectCores t.rect).length * Config.freeNat s.draws)).drawn 1

/-- A context is loaded from now on: its quantum and its idle time begin (R255). -/
def State.beginQuantum (s : State) (n : Nat) : State :=
  let s := s.modCtx n fun c =>
    { c with
      loaded := true, unloaded := false, saved := none, waitingSince := 0, expired := false, idle := false, stopping := none, held := false
      pendingRevoke := [], quantumEnd := s.iod.ns + tget 0 s.iod.quanta (s.tst n).cls }
  s.posts [.quantumExpiry n, .contextIdle n, .spawnServe (s.tst n).die]

/-- One item of the arrival log is replayed, as memory holds it (R256, R310); none when it has to stay. A bank that lands for a
core revoked meanwhile is released (R296). -/
def State.replayItem (s : State) (n : Nat) (i : LogItem) : Option State :=
  match i.delivery with
  | 2 => some ((s.logDrop n i).semArrive i.core i.num (.add (s.logDword n i 16).toNat))
  | 3 => some ((s.logDrop n i).barArrive i.core i.slot i.num ((s.logDword n i 16).extractLsb' 0 32) i.live)
  | 4 =>
    let b := (s.logDword n i 16).toNat
    match (s.bank b).reserved with
    | some v =>
      let s := s.logDrop n i
      some (if (s.site i.core).revoked || (s.site i.core).revoking.isSome || (s.site i.core).revokeDue.isSome then s.release b
        else s.landBank b { core := i.core, w := i.num, owner := (s.tst n).owner, image := v.image } v.rd v.wr)
    | none => some (s.logDrop n i)
  | _ =>
    let first := match s.ctx n with | some c => c.logged i.core i.num == some i | none => false
    if first && ((s.site i.core).mail i.num).length < 8 then
      some ((s.logDrop n i).placeMail i.core i.num (s.loggedMail n i))
    else none

/-- The arrival log is replayed in arrival order: item number k is next; the first argument bounds the items. -/
def State.replayFrom (s : State) (n : Nat) : Nat → Nat → State
  | 0, _ => s
  | f + 1, k =>
    match (s.ctx n).bind fun c => c.log[k]? with
    | none => s
    | some i =>
      match s.replayItem n i with
      | some s' => s'.replayFrom n f k
      | none => s.replayFrom n f (k + 1)

/-- The arrival log is replayed before any slot issues (R256). -/
def State.replayLog (s : State) (n : Nat) : State :=
  match s.ctx n with
  | none => s
  | some c => s.replayFrom n (2 * (c.log.length + c.logWait.length) + 1) 0

/-- ARRIVAL_LOG_MOVE (R201, R258, R350): the oldest logged message moves into its mailbox; an addition, arrival or landing that took an
entry of a loaded context's log from the port goes on to its target. -/
def execArrivalLogMove (core mb : Nat) (s : State) : Host.Outcome State Fault Refusal :=
  match s.loadedOn core with
  | none => .next s
  | some n =>
    match s.ctx n with
    | none => .next s
    | some c =>
      let s := s.moveLogged n core mb c
      .next (if c.log.any fun i => i.delivery != 1 && i.delivery != 5 then s.replayLog n else s)

/-! Scheduling (R255). -/

/-- QUANTUM_EXPIRY (R255): when the I/O-die time reaches the end of the quantum, a same-class context that waits pre-empts this
one; else the next quantum begins. Time moves on by free amounts (log 6, log 20). -/
def execQuantumExpiry (n : Nat) (s : State) : Host.Outcome State Fault Refusal :=
  match s.ctx n with
  | none => .next s
  | some c =>
    if !c.loaded then .next s
    else if s.tick.iod.ns < c.quantumEnd then .next (s.tick.post (.quantumExpiry n))
    else
      let s := s.tick
      let waits := s.waitingList.any fun m => (s.tst m).cls == (s.tst n).cls && overlaps (s.tst m) (s.tst n)
      if waits then .next (s.modCtx n fun c => { c with expired := true }).schedule
      else .next ((s.modCtx n fun c => { c with quantumEnd := s.iod.ns + tget 0 s.iod.quanta (s.tst n).cls }).post (.quantumExpiry n))

/-- CONTEXT_IDLE (R255): a context whose slots have all been parked long enough, a free number of steps, yields to any
waiting one. -/
def execContextIdle (n : Nat) (s : State) : Host.Outcome State Fault Refusal :=
  match s.ctx n with
  | none => .next s
  | some c =>
    if !c.loaded then .next s
    else
      let long := Config.freeNat s.draws % 2 = 1
      let s := (s.drawn 1).post (.contextIdle n)
      if !s.allIdle n then .next (s.modCtx n fun c => { c with idle := false })
      else if c.idle || !long then .next s
      else .next (s.modCtx n fun c => { c with idle := true }).schedule

/-! Pre-emption (R256, R257, R266, R319). -/

/-- Cores of a loaded context. -/
def State.ctxCores (s : State) (n : Nat) : List Nat :=
  (rectCores (s.tst n).rect).filter fun c => s.loadedOn c == some n

/-- Whether a copy keeps a pre-emption waiting (R256, R319): one that runs, or one that lands in the context from another. -/
def State.copyHolds (s : State) (n : Nat) (cores : List Nat) (c : Copy) : Bool :=
  (c.ctx == some n && c.fault.isNone && !s.heldUp c) || (c.kind == .cpyx && cores.contains c.farCore)

/-- Whether a context has come to rest; no latch pass and no row of an MSTO is under way and its cores' outbound queues are
empty then (R195, R358). -/
def State.atRest (s : State) (n : Nat) : Bool :=
  let cores := s.ctxCores n
  (cores.all fun c => (coreSlots c).all fun r => !s.slotHolds r) && s.copies.all (fun c => !s.copyHolds n cores c) &&
  cores.all fun c => (s.site c).revoking.isNone && (s.site c).revokeDue.isNone && (s.site c).outbound.isEmpty &&
    ((s.site c).w5.all fun e => !e.passing && !e.asked) &&
    (List.range 16).all fun w => !(s.entry c w).land

/-- Messages that wait for a full mailbox go to the arrival log (R201, R256 step 5); a notice that is held back arrives again, and is
logged after the message that holds it (R203). -/
def State.divertAll (s : State) (n core : Nat) : State :=
  (List.range 16).foldl (fun s mb =>
    let ms := (s.site core).waiting mb
    let s := s.modSite core fun x => { x with mbWait := tset [] x.mbWait mb [] }
    ms.foldl (fun s m =>
      if s.noticeHeld core m then s.post (.messageArrival core (s.tst n).owner mb m none) else s.logItem n (mailItem core mb m)) s) s

/-- Listed bytes of a run. -/
def cellsIn (m : List Host.Cell) (k n : Nat) : List Host.Cell := m.filter fun c => k ≤ c.1 && c.1 < k + n

/-- Whether a site is needed free by an incoming context: in its rectangle, or of a bank it has in its image. -/
def siteWanted (t : Turnstile) (site : Nat) : Bool :=
  inRect t.rect site || (match t.ctx with | some c => c.evicted.contains site | none => false)

/-- A bank of a pre-empted context is detached, held fallow for it or written to its image (R257); a checkpoint writes every
bank (R285). -/
def State.evictBank (s : State) (incoming : Turnstile) (core w : Nat) : SavedBank × State :=
  let e := s.entry core w
  let b := e.bank
  let out := siteWanted incoming (bankSite b) || s.iod.ckptStatus == 1
  let image := if out then
      some (cellsIn s.mem (bankKey b 0) 65536, (s.poison.filter fun c => inBank b c.1).map Prod.fst)
    else none
  let s := s.modBank b fun k =>
    { k with att := false, fallow := true, entering := true, reserved := if out then none else some { ctx := (s.site core).launch.getD 0, core := core, w := w, rd := e.rd, wr := e.wr } }
  ({ core := core, w := w, bank := b, rd := e.rd, wr := e.wr, image := image }, s.post (.retentionEntryEnd b))

/-- The banks of a core. -/
def State.evictCore (s : State) (incoming : Turnstile) (core : Nat) : List SavedBank × State :=
  (s.attachedWindows core).foldl (fun (e : List SavedBank × State) w =>
    let (b, s) := e.2.evictBank incoming core w
    (e.1 ++ [b], s)) ([], s)

/-- A slot goes to the context image (R232, R256): it leaves the reservation queue it waits in, a pinned position is kept. -/
def State.saveSlot (s : State) (r : SlotRef) : Slot × State :=
  let s := s.leaveResv r
  let x := s.slot r
  let s := match x.pin with
    | some (o, p) => s.modObj o fun k => { k with pins := if k.pins.contains p then k.pins else k.pins ++ [p] }
    | none => s.abandonRead r
  (x, s.setSlot r {})

/-- The slots of a list of cores go to the context image. -/
def State.saveSlots (s : State) (rs : List SlotRef) : List (Nat × Slot) × State :=
  rs.foldl (fun (e : List (Nat × Slot) × State) r =>
    if e.2.slot r = {} then e
    else
      let (x, s) := e.2.saveSlot r
      (e.1 ++ [(slotKey r, x)], s)) ([], s)

/-- Packets of full size that carry n bytes between a core and a memory die (R271). -/
def State.transfer (s : State) (src dst n : Nat) : State :=
  let t := (List.range ((n + 255) / 256)).foldl (fun (s : State) i => s.transit src dst 2 (Nat.min 256 (n - 256 * i))) s
  { s with packets := t.packets, routers := t.routers, work := t.work, nextId := t.nextId }

/-- The traffic of a pre-emption or a restore between the cores of a rectangle and the memory die of their context image (R271, log 16):
each core's share of the area. -/
def State.imageTraffic (s : State) (t : Turnstile) (d : Desc) (n : Nat) (out : Bool) : State :=
  let home := memNode (hashKey d.ctxPA / 2 ^ 38)
  let cores := rectCores t.rect
  let share := (n + cores.length - 1) / cores.length
  cores.foldl (fun s c => if out then s.transfer c home share else s.transfer home c share) s

/-- The area of the context image is written, under the owner's key (R256, R310): its bytes are open (log 15). -/
def State.writeImageArea (s : State) (d : Desc) (bs : List Byte) : State :=
  let t := (s.physPut (s.ownerKey d.owner.toNat) d.ctxPA bs).chargeLines true d.ctxPA bs.length
  { s with mem := t.mem, tags := t.tags, iod := t.iod }

/-- Names of the votes whose word stands in a slot's buffer or is on its way east from it. -/
def Slot.votesCarried (x : Slot) : List Nat := (x.out ++ x.buf).filterMap fun w => w.vote.map Prod.fst

/-- A vote of a row that has not turned back is taken back (R381): the word returns, with no value, to the westmost core that
waits for it, and every core that waits for it issues it again at the restore. When none waits, the word goes on with no value: what
it carried came from cores that are benched or whose guard was false. -/
def State.withdrawVote (s : State) (rs : List SlotRef) (id : Nat) : State :=
  let named (w : StreamWord) : Bool := w.vote.map Prod.fst == some id
  let waits (x : Slot) : Bool := match x.status with | .parked (.vote i _) => i == id | _ => false
  let word := rs.findSome? fun r => ((s.slot r).out ++ (s.slot r).buf).find? named
  let first := rs.find? fun r => waits (s.slot r)
  let redo (ws : List StreamWord) : List StreamWord :=
    if first.isSome then ws.filter (!named ·) else ws.map fun w => if named w then { w with vote := none } else w
  rs.foldl (fun s r =>
    let x := s.slot r
    let x := { x with out := redo x.out, buf := redo x.buf }
    let x := if waits x then { x with status := .ready, since := 0, stage := .fresh } else x
    s.setSlot r (match word with
      | some w => if first = some r then { x with buf := { w with vote := none } :: x.buf } else x
      | none => x)) s

/-- At a pre-emption nothing is saved of the votes that have not turned back west (R381). -/
def State.withdrawVotes (s : State) (t : Turnstile) (d : Desc) : State :=
  (streamKeys t d).foldl (fun s e =>
    let rs := (List.range (coreCol (rectHi t.rect) + 1 - coreCol (rectLo t.rect))).map fun j =>
      meshSlot (coreId t.die e.1 (coreCol (rectLo t.rect) + j)) e.2
    let turned := (s.barker t.die e.1 e.2).votes.map Prod.fst
    let ids := (rs.flatMap fun r => (s.slot r).votesCarried).filter fun i => !turned.contains i
    ids.foldl (fun s i => s.withdrawVote rs i) s) s

/-- A context at rest is saved to its image (R256 steps 3-5). -/
def State.swapOut (s : State) (n incoming : Nat) : State :=
  let t := s.tst n
  let inc := s.tst incoming
  let cores := s.ctxCores n
  match t.desc with
  | none => s
  | some d =>
    let (slots, s) := ((cores.foldl State.postRecords s).withdrawVotes t d).saveSlots (cores.flatMap coreSlots)
    let s := s.modCtx n fun c => { c with loaded := false, stopping := none, waitingSince := 0 }
    let s := cores.foldl (fun s c => s.divertAll n c) s
    let (banks, s) := cores.foldl (fun (e : List SavedBank × State) c =>
      let (bs, s) := e.2.evictCore inc c
      (e.1 ++ bs, s)) ([], s)
    let sites := cores.map fun c => (c, s.site c)
    let stores := cores.flatMap fun c => cellsIn s.mem (storeKey c 0) 65536
    let descs := cores.flatMap fun c => cellsIn s.mem (segStoreKey c 0) 2048
    let barkers := (streamKeys t d).map fun e => (e.1 * 8 + e.2, s.barker t.die e.1 e.2)
    let v : Saved := { slots := slots, sites := sites, stores := stores, descriptors := descs, banks := banks, barkers := barkers, area := Config.contextImage s.draws }
    let s := ((s.drawn 1).writeImageArea d (Config.contextImage s.draws)).imageTraffic t d (Config.contextImage s.draws).length true
    let s := cores.foldl (fun s c => s.setSite c {}) s
    let s := (streamKeys t d).foldl (fun s e => s.modBarker t.die e.1 e.2 fun _ => {}) s
    let s := s.bump.modCtx n fun c =>
      { c with saved := some v, waitingSince := if c.log = [] ∧ c.logWait = [] then 0 else if c.waitingSince = 0 then s.fresh else c.waitingSince }
    s.schedule

/-- Holders of reservations of a context that have to let go (R208, R303): an instruction under way completes first. -/
def State.holders (s : State) (n : Nat) : List SlotRef :=
  ((s.ctxCores n).flatMap coreSlots).filter fun r =>
    let x := s.slot r
    (match x.resv with | some v => v.held | none => false) && (match x.stage with | .granted _ => false | _ => true)

/-- A context comes to rest: it goes to its image then. A held reservation is waited for, and taken away after a free number
of steps (R208, R256). -/
def State.pressOn (s : State) (n incoming : Nat) : State :=
  let s := s.modCtx n fun c => { c with stopping := some incoming }
  if s.atRest n then s.swapOut n incoming
  else
    let hs := s.holders n
    if hs = [] then s
    else if Config.freeNat s.draws % 2 = 1 then (s.drawn 1).posts (hs.map .reservationForceRelease)
    else s.drawn 1

/-- A pre-emption under way is called off: the context stays loaded, and what R266 put off until the restore happens now
(DESIGN CHOICE, log 100). -/
def State.callOff (s : State) (n : Nat) (c : Context) : State :=
  let s := s.modCtx n fun c => { c with stopping := none, pendingRevoke := [] }
  ((c.pendingRevoke.foldl (fun s r => s.benchRecord (placeKey r.place) r (s.slot r)) s).post (.spawnServe (s.tst n).die)).schedule

/-- PREEMPTION (R256): the slots stop at their boundaries until the context is at rest. Where the incoming context is disarmed first,
the pre-emption is called off (DESIGN CHOICE, log 100). -/
def execPreemption (n incoming : Nat) (s : State) : Host.Outcome State Fault Refusal :=
  match s.ctx n, s.ctx incoming with
  | some c, some w =>
    if !c.loaded || (s.tst n).state != 2 then .next s
    else if w.loaded || (c.stopping.isNone && (!s.yieldsTo n incoming || !overlaps (s.tst incoming) (s.tst n))) then .next s
    else if c.stopping.isSome && c.stopping != some incoming then .next s
    else
      let s := s.pressOn n incoming
      .next (if (s.tst n).isLoaded then s.post (.preemption n incoming) else s)
  | some c, none =>
    .next (if c.stopping = some incoming then s.callOff n c else s)
  | _, _ => .next s

/-! Restore (R256, R257). -/

/-- Whether a saved bank can land: no other window holds it. Its site may have been marked unusable meanwhile (log 81). -/
def State.canLand (s : State) (b : SavedBank) : Bool :=
  let k := s.bank b.bank
  !k.att && k.drain.isNone && !k.clearing && (b.image.isNone || k.reserved.isNone)

/-- A bank of the context image lands in its window again (R257). A bank that was written to the image lands with no mark REVOKED (log 84). -/
def State.restoreBank (s : State) (owner : BitVec 16) (b : SavedBank) : State :=
  let s : State := match b.image with
    | none => s
    | some (cells, poison) =>
      let s : State := { s with
        mem := s.mem.filter fun c => !inBank b.bank c.1
        poison := s.poison.filter fun c => !inBank b.bank c.1
        wrong := s.wrong.filter fun c => !inBank b.bank c.1 }
      let s := if (s.bank b.bank).owner = owner then s else s.refuseQueued b.bank 4
      let s := cells.foldl (fun (s : State) c => s.setByte c.1 c.2) s
      let s := poison.foldl (fun (s : State) k => s.setPoison k true) s
      s.modBank b.bank fun k => { k with owner := owner, revoked := false }
  s.landBank b.bank { core := b.core, w := b.w, owner := owner.toNat } b.rd b.wr

/-- A slot as it stands after a restore: a matrix command, a vote whose final value was saved and a pinned call go on, a YIELD is
complete, every other parked instruction was withdrawn and issues again (R232, R256, R344, R350, R356, R381, R387). -/
def restoredSlot (r : SlotRef) (x : Slot) : Slot :=
  match x.status with
  | .parked .yield => { x.retire (x.onEast r.place) 1 with status := .ready }
  | .parked (.matrix _) | .parked (.vote ..) => x
  | .parked (.applied ..) => if x.pin.isSome then x else { x with status := .ready, since := 0, stage := .fresh }
  | .parked _ => { x with status := .ready, since := 0, stage := .fresh }
  | .ready => match x.stage with
    | .tailIs _ => { x with since := 0, stage := .fresh }
    | _ => x
  | _ => x

/-- Bytes, one for each place, that nothing determines. -/
def openCells (n : Nat) (cells : List Host.Cell) : List Host.Cell := cells.mapIdx fun i c => (c.1, Config.freeByte (n + i))

/-- A saved slot whose image was overwritten: its registers hold open values. -/
def Slot.opened (n : Nat) (x : Slot) : Slot :=
  let word (i : Nat) : Nat := Config.freeNat (n + i)
  let x := (List.range 16).foldl (fun (x : Slot) i =>
    (x.setG (BitVec.ofNat 4 i) (BitVec.ofNat 64 (word i))).setV (BitVec.ofNat 4 i) (BitVec.ofNat 512 (word (16 + i)))) x
  let x := (List.range 8).foldl (fun (x : Slot) i =>
    (x.setM (BitVec.ofNat 3 i) (BitVec.ofNat 64 (word (32 + i)))).setS (BitVec.ofNat 3 i) (BitVec.ofNat 128 (word (40 + i)))) x
  { x with q := BitVec.ofNat 16 (word 48) ||| 1, pc := BitVec.ofNat 16 (word 49 * 4) }

/-- What a restore reads back from the context image (R256, R310): the area is read, and when its bytes are not those that were
written, registers, stores, descriptors and written banks hold open values (log 15). -/
def State.readImage (s : State) (d : Desc) (v : Saved) : Saved × State :=
  let same := s.keyBytes (s.ownerKey d.owner.toNat) d.ctxPA v.area.length == v.area
  let n := s.draws
  let s := s.chargeLines false d.ctxPA v.area.length
  if same then (v, s)
  else
    ({ v with
        slots := v.slots.map fun e => (e.1, e.2.opened (n + 64 * e.1))
        stores := openCells n v.stores
        descriptors := openCells n v.descriptors
        banks := v.banks.map fun b => { b with image := b.image.map fun i => (openCells n i.1, i.2) } }, s.drawn (2 ^ 26))

/-- Events of a restored core: what was under way goes on. -/
def State.resumeCore (s : State) (core : Nat) : State :=
  let s := (coreSlots core).foldl (fun s r =>
    (s.slot r).coming.foldl (fun s e =>
      let dir : Dir := if e.1 = 0 then .east else if e.1 = 1 then .west else if e.1 = 2 then .north else .south
      s.posts (e.2.map fun _ => .latchEntryArrival core r.k dir)) s) s
  s.kick core

/-- Transfers on the fabric whose suspension ended while the context was out go on. -/
def State.resumeCopies (s : State) (n : Nat) : State :=
  s.copies.foldl (fun s c =>
    if c.ctx == some n && c.started && c.fault.isNone && c.away then s.awayGo c c.resume else s) s

/-- RESTORE (R256, R257, R266): the first load of a context, or its image is read back, its banks land, and the arrival log
is replayed. A bank of the image that another window holds is waited for. -/
def execRestore (n : Nat) (s : State) : Host.Outcome State Fault Refusal :=
  let t := s.tst n
  match t.ctx, t.desc with
  | some c, some d =>
    if c.loaded ∨ t.state ≠ 2 ∨ s.iod.ckptStatus = 1 then .next s
    else if s.inTheWay n ≠ [] then .next s.schedule
    else if c.unloaded then .next (s.post (.loadRectangle n))
    else match c.saved with
      | none => .next s
      | some v =>
        if !v.banks.all s.canLand then .next (s.post (.restore n))
        else
          let (v, s) := s.readImage d v
          let s := s.imageTraffic t d v.area.length false
          let cores := v.sites.map Prod.fst
          let s := v.sites.foldl (fun s e => s.setSite e.1 { e.2 with outbound := (s.site e.1).outbound }) s
          let mem := s.mem.filter fun e => !cores.any fun c =>
            (storeKey c 0 ≤ e.1 && e.1 < storeKey c 0 + 65536) || (segStoreKey c 0 ≤ e.1 && e.1 < segStoreKey c 0 + 2048)
          let s := (v.stores ++ v.descriptors).foldl (fun s e => s.setByte e.1 e.2) ({ s with mem := mem } : State)
          let s := v.barkers.foldl (fun s e =>
            let s := (s.modBarker t.die (e.1 / 8) (e.1 % 8) fun _ => e.2).post (.barkerFetch t.die (e.1 / 8) (e.1 % 8))
            if e.2.votes = [] then s else s.post (.voteResultArrival t.die (e.1 / 8) (e.1 % 8))) s
          let s := v.slots.foldl (fun s e =>
            let r := meshSlot (e.1 / 8) (e.1 % 8)
            s.setSlot r (restoredSlot r e.2)) s
          let s := v.banks.foldl (fun s b => s.restoreBank d.owner b) s
          let s := cores.foldl State.resumeCore s
          let s := (s.chargeLoad t d).beginQuantum n
          let s := s.resumeCopies n
          let s := c.pendingRevoke.foldl (fun s r => s.benchRecord (placeKey r.place) r (s.slot r)) s
          let s := cores.foldl (fun s c => (s.postRecords c).revokeNow c) s
          .next (s.replayLog n)
  | _, _ => .next s

/-! DISARM (R252, R321, R363). -/

/-- A slot stops for DISARM: nothing of it remains but the stores it has outstanding. -/
def Slot.discarded (x : Slot) : Slot := { relaxed := x.relaxed, rect := x.rect, owner := x.owner }

/-- DISARM's steps 1-3: no message counts, the slots stop, streams and commands are abandoned. -/
def State.closeTst (s : State) (n : Nat) (by_ : Option SlotRef) : State :=
  let t := s.tst n
  let cores := s.ctxCores n
  let s := (cores.foldl State.postRecords s).modTst n fun t => { t with state := 3, held := [], firings := [], closer := by_ }
  let s := t.held.foldl (fun s m => s.refuseTagged m.1 4) s
  let s := cores.foldl (fun s c =>
    let s := (coreSlots c).foldl (fun s r =>
      let s := ((s.leaveResv r).abandonRead r).unpinSlot (s.slot r)
      s.modSlot r fun x => if x.status = Status.free then x else { x.discarded with status := .benched }) s
    s.modSite c fun x => { x with w4 := [], w5 := [] }) s
  let s := { s with copies := s.copies.filter fun c => c.started || c.ctx != some n }
  s.post (.turnstileRelease n)

/-- Whether accesses and copies of a closing launch are still under way (R109, R195, R252). -/
def State.closing (s : State) (n : Nat) (cores : List Nat) : Bool :=
  (cores.any fun c => (coreSlots c).any fun r => !(s.slot r).relaxed.isEmpty) ||
  (s.copies.any fun c => (c.ctx == some n && (s.tst n).isLoaded) || (c.kind == .cpyx && cores.contains c.farCore)) ||
  (s.iod.requests.any fun q => cores.contains (placeKey q.slot.place) && q.what != .sendt) ||
  cores.any fun c => (s.site c).revoking.isSome || (s.attachedWindows c).any fun w => (s.bank (s.entry c w).bank).landing.isSome

/-- Claims of a launch's own cores are withdrawn everywhere, before any bank of the launch is granted on (R108, R252 step 5). -/
def State.dropClaims (s : State) (n : Nat) : State :=
  let mine (c : Claim) : Bool := c.ctx == some n
  s.banks.foldl (fun s e =>
    if e.2.queue.any mine || e.2.heldClaims.any mine then
      s.modBank e.1 fun k => { k with queue := k.queue.filter (!mine ·), heldClaims := k.heldClaims.filter (!mine ·) }
    else s) s

/-- Banks held fallow for a swapped-out context (R117, R257, R321). -/
def Context.reservedBanks (c : Context) : List Nat :=
  (match c.saved with
    | some v => (v.banks.filter fun b => b.image.isNone).map SavedBank.bank
    | none => []) ++ ((c.log ++ c.logWait).filter fun i => i.delivery == 4).map fun i => i.payload.toNat

/-- Pins of a discarded context clear (R232). -/
def State.unpin (s : State) (v : Saved) : State :=
  v.slots.foldl (fun s e => s.unpinSlot e.2) s

/-- The image of a swapped-out context is discarded and its banks are released (R321). -/
def State.discardImage (s : State) (n : Nat) (t : Turnstile) : State :=
  match t.ctx with
  | none => s
  | some c =>
    if c.loaded then s
    else
      let s := match c.saved with | some v => s.unpin v | none => s
      let s := { s with copies := s.copies.filter fun k => k.ctx != some n }
      c.reservedBanks.foldl (fun s b => s.release b) s

/-- The cores of a loaded launch are given up (R252 steps 4 and 5); messages that were accepted still leave (R358). -/
def State.releaseCores (s : State) (cores : List Nat) : State :=
  cores.foldl (fun s c =>
    let banks := (s.attachedWindows c).map fun w => (s.entry c w).bank
    let waits := (List.range 16).flatMap fun mb => (s.site c).waiting mb
    let s := waits.foldl (fun s m => s.settledMail c m) s
    let s := (coreSlots c).foldl (fun s r => s.setSlot r {}) (s.setSite c { outbound := (s.site c).outbound })
    banks.foldl (fun s b => s.release b) s) s

/-- Queued requests that name a core of the launch are dropped (R363). -/
def State.dropSpawns (s : State) (d : Nat) (cores : List Nat) : State :=
  s.modDie d fun x => { x with ready := x.ready.filter fun q => match q.core with
    | some c => !cores.contains c
    | none => true }

/-- Slots parked on the release of a turnstile go on: the one that closed it with q15 true (R252, R321). -/
def State.wakeDisarms (s : State) (n : Nat) (by_ : Option SlotRef) : State :=
  s.slots.foldl (fun s e =>
    if e.2.status = Status.parked (.disarm n) then
      { s with slots := tset {} s.slots e.1 { e.2 with status := .ready, stage := .acked (by_.map slotKey == some e.1) } }
    else s) s

/-- What a launch that ends has sent, or a device was asked for it, reports to no slot any more; its arrivals at barriers, and what
streamers sent to it, are dropped where they come to (R212, R311, R319, R358). -/
def State.orphanSends (s : State) (n : Nat) : State :=
  let mine (c : Option Nat) : Bool := c == some n
  { s with
    sends := s.sends.map fun e => { e with ctx := if mine e.ctx then nobody else e.ctx, tgt := if mine e.tgt then nobody else e.tgt }
    barSends := s.barSends.map fun b => if mine b.ctx then { b with ctx := none } else b
    copies := s.copies.map fun c => if mine c.farCtx then { c with farCtx := nobody } else c
    iod := { s.iod with requests := s.iod.requests.map fun q => if mine q.ctx then { q with ctx := nobody } else q } }

/-- LOAD_RECTANGLE (R253): the first load of a context; the firing is then delivered. -/
def execLoadRectangle (n : Nat) (s : State) : Host.Outcome State Fault Refusal :=
  let t := s.tst n
  match t.ctx, t.desc with
  | some c, some d =>
    if !c.unloaded ∨ t.state ≠ 2 ∨ s.iod.ckptStatus = 1 then .next s
    else if s.inTheWay n ≠ [] then .next s.schedule
    else
      let s := (rectCores t.rect).foldl (fun s core => s.loadCore n t d core) s
      let s := (s.startBarkers n t d).chargeLoad t d
      let s := s.beginQuantum n
      let s := t.firings.foldl (fun s m => s.placeMail (originOf t.rect) 15 m) s
      .next ((s.modTst n fun t => { t with firings := [] }).replayLog n)
  | _, _ => .next s

/-- TURNSTILE_RELEASE (R252, R298): once the drains are done the launch's state is discarded and STATE becomes 0. -/
def execTurnstileRelease (n : Nat) (s : State) : Host.Outcome State Fault Refusal :=
  let t := s.tst n
  let cores := s.ctxCores n
  if t.state ≠ 3 then .next s
  else if s.closing n cores then .next (s.post (.turnstileRelease n))
  else
    let unloaded : State := match t.desc with | some d => s.unloadLaunch d.storePA | none => s
    let s := ((unloaded.dropClaims n).discardImage n t).orphanSends n
    let s : State := match t.desc with
      | some d => (streamKeys t d).foldl (fun s e =>
          if (s.barker t.die e.1 e.2).launch = some n then s.modBarker t.die e.1 e.2 fun _ => {} else s) s
      | none => s
    let s := ((s.releaseCores cores).dropSpawns t.die cores).modTst n fun t => { t with state := 0, desc := none, ctx := none, closer := none }
    let s := s.iod.hostWaits.foldl (fun (s : State) w => match w.what with
      | .disarm m closes => if m = n then s.hostDone w closes else s
      | _ => s) (s.wakeDisarms n t.closer)
    .next s.schedule

/-- DISARM (R252, R321). -/
def execDisarm (q : R4) (a : R4) (s : State) : Host.Outcome State Fault Refusal :=
  issue (.disarm q a) q s fun r x s =>
    match x.stage with
    | .acked b => doneQ s r 15 b
    | _ =>
      let n := (x.getG a).toNat
      if 1024 ≤ n then trapOf cILL
      else match (s.tst n).state with
        | 0 => doneQ s r 15 false
        | 3 => .park s (.disarm n)
        | _ => .park (s.closeTst n (some r)) (.disarm n)

end Sys2Proof.Machine
end

