-- ==== Sys2Proof/Machine/Fabric.lean ====
section
/-! DEFINITION. Fabric packets that arrive, lost requests, and the links (R211, R250, R264, R265, R274-R277, R282, R304, R329, R347,
R359). -/
namespace Sys2Proof.Machine

/-! The links (R265, R277). -/

/-- A failure on a link (R265): after eight in a row the link retrains. `resend` says that a packet is sent again. -/
def State.linkFails (s : State) (port : Nat) (resend : Bool) : State :=
  s.modIod fun d =>
    let x := d.port port
    let retry := if resend then Nat.min 255 (x.retry + 1) else x.retry
    d.setPort port (
      if 8 ≤ x.fails + 1 then { x with state := 1, fails := 0, retry := 0, trains := Nat.min 65535 (x.trains + 1) }
      else { x with fails := x.fails + 1, retry := retry })

/-- A packet of a device has come in whole: it ends a row of failures, and its flits are charged (R265, R277, R282). -/
def State.received (s : State) (p : Packet) (acct : Nat) : State :=
  let port := s.iod.portOf p.src
  let s := s.modIod fun d => d.setPort port { d.port port with fails := 0, expect := (p.seq + 1) % 2 ^ 16 }
  s.charge acct 5 (64 * fabricFlits p.payload.length)

/-- The command words of an OP 12 packet from a host: sequence number, function, code and socket (R295). -/
def commandWords (p : Packet) : Option (Nat × Nat × Nat × Nat) :=
  let w := ofLe (p.payload.take 8)
  if p.op = 12 ∧ w % 2 ^ 8 = 2 then some (w / 2 ^ 32 % 2 ^ 32, w / 2 ^ 8 % 2 ^ 8, w / 2 ^ 16 % 2 ^ 8, w / 2 ^ 24 % 32) else none

/-- FABRIC_BAD_OP (R275, R295): a packet that none of the other events takes is dropped and counted against the link; a command
of a code outside 1-10 is refused with status 2 (its event: DESIGN CHOICE, log 75). -/
def execFabricBadOp (port : Nat) (p : Packet) (s : State) : Host.Outcome State Fault Refusal :=
  match commandWords p with
  | some (seq, f, code, socket) => .next ((s.received p 0).hostReply p.src f code socket seq 2 false [])
  | none => .next (s.linkFails port false)

/-- HEADER_CRC_ERROR (R265, R277): a packet with a bad CRC or GCM tag is dropped, counted against the link, and asked for again,
from the sequence number that was to come. -/
def execHeaderCrcError (port : Nat) (s : State) : Host.Outcome State Fault Refusal :=
  .next ((s.modIod fun d => { d with resends := d.resends ++ [(port, (d.port port).expect)] }).linkFails port true)

/-- LINK_RESEND_REQUEST (R265, R277): the packets of the replay buffer from a sequence number on are sent again. -/
def execLinkResendRequest (port seq : Nat) (s : State) : Host.Outcome State Fault Refusal :=
  let again := (s.iod.port port).replay.dropWhile fun e => e.2.seq != seq % 2 ^ 16
  .next ((again.foldl (fun (s : State) e => s.wire port e.1 e.2) s).linkFails port true)

/-- PORT_DOWN (R277). -/
def execPortDown (port : Nat) (s : State) : Host.Outcome State Fault Refusal :=
  .next (s.modIod fun d => d.setPort port { d.port port with state := 0, fails := 0 })

/-- PORT_UP (R274, R277): up with a session key, whose packet count starts at 0, or without one. -/
def execPortUp (port : Nat) (key : Bool) (s : State) : Host.Outcome State Fault Refusal :=
  .next (s.modIod fun d => d.setPort port
    (if key then { d.port port with state := 2, count := 0, session := (d.port port).session + 1, fails := 0 } else { d.port port with state := 3, fails := 0 }))

/-! Requests of other devices (R264, R275, R304, R347). -/

/-- The die whose tables translate a request: the lowest that lists its owner among its roots (R134). -/
def State.homeDie (s : State) (owner : Nat) : Nat :=
  ((List.range 8).find? fun d => (List.range 64).any fun i =>
    let e := tget 0 (s.die d).oroot i
    e.getLsbD 16 && (e.extractLsb' 0 16).toNat == owner).getD 0

/-- Where a byte of a request is: memory key and tag; none when it is refused. -/
def State.homeByte (s : State) (owner va : Nat) (acc : Acc) : Option (Nat × Nat) :=
  let d := s.homeDie owner
  match s.walk d owner va acc with
  | .leaf e =>
    if leafPlace e = 2 && acc.writes then none
    else
      let pa := leafBase e + va % 2 ^ leafShift e
      some (placeByte (leafPlace e) (leafNear e) d pa, dramTag (leafKey e) pa)
  | _ => none

/-- The bytes of a request as pieces of one byte; none when any is refused, or there are more than 512. -/
def State.homePieces (s : State) (owner va n : Nat) (acc : Acc) : Option (List Piece) :=
  if 512 < n then none
  else (List.range n).foldl (fun (ps : Option (List Piece)) i =>
    match ps, s.homeByte owner (va + i) acc with
    | some ps, some (k, t) => some (ps ++ [{ pos := i, key := k, n := 1, tag := t }])
    | _, _ => none) (some [])

/-- Whether a store to pieces meets poison it does not cover (R144). -/
def State.homePoisoned (s : State) (ps : List Piece) : Bool := ps.any (s.storePoisoned ps)

/-- The packets of a request of a device, of its class, between the I/O die and the memory dies, one for each line (R271, R272, log 16). -/
def State.homeTraffic (s : State) (cls : Nat) (ps : List Piece) (write : Bool) : State :=
  (linesOf ps).foldl (fun s k =>
    let n := (ps.filter fun p => p.key / 64 * 64 == k).length
    s.exchange ioNode (memNode (k / 2 ^ 38)) cls (if write then n else 0) (if write then 0 else n)) s

/-- Writing the bytes of a request of a class; whole lines lose their marks (R144). -/
def State.homeWrite (s : State) (cls : Nat) (ps : List Piece) (data : List Byte) : State :=
  ((s.storePieces ps data).countLines none 0 false true (linesOf ps)).homeTraffic cls ps true

/-- Reading the bytes of a request of a class. -/
def State.homeRead (s : State) (cls : Nat) (ps : List Piece) : List Byte × State :=
  (ps.flatMap s.readPiece, ((s.drawPieces ps).countLines none 0 false false (linesOf ps)).homeTraffic cls ps false)

/-- The walks of a request, one for each 64 KiB it touches. -/
def State.homeWalks (s : State) (owner va n : Nat) : State :=
  if n = 0 then s else
    (List.range ((va + n - 1) / 65536 + 1 - va / 65536)).foldl (fun s i => s.walked (s.homeDie owner) owner (va / 65536 * 65536 + 65536 * i)) s

/-- A request of a device comes in: its packet, and the walks it needs. -/
def State.requested (s : State) (p : Packet) (n : Nat) : State := (s.received p 0).homeWalks p.owner p.addr n

/-- A reply to a request, with its tag. -/
def State.replyTo (s : State) (p : Packet) (op asub : Nat) (payload : List Byte) : State :=
  s.answer p.src op p.tag p.addr asub p.cls p.owner payload

/-- A request is refused; a store, atomic or copy write is logged (R264). -/
def State.refuseFor (s : State) (p : Packet) (kind : Option Nat) : State :=
  let s := match kind with
    | some k => s.faultLog p.src p.owner k p.addr
    | none => s
  s.replyTo p 8 0 []

/-- Answering a load or GETR request (R275, R347); the refusal of a GETR is logged as of a copy (R347; the kind of its record:
DESIGN CHOICE, log 71). -/
def State.serveRead (s : State) (p : Packet) (acc : Acc) (kind : Option Nat) : State :=
  let s := s.requested p p.len
  match s.homePieces p.owner p.addr p.len acc with
  | none => s.refuseFor p kind
  | some ps =>
    if ps.any s.piecePoisoned then s.refuseFor p kind
    else
      let (bs, s) := s.homeRead p.cls ps
      s.replyTo p 10 0 bs

/-- FABRIC_LOAD_REQUEST (R275). -/
def execFabricLoadRequest (p : Packet) (s : State) : Host.Outcome State Fault Refusal := .next (s.serveRead p .load none)

/-- FABRIC_GETR_REQUEST (R347). -/
def execFabricGetrRequest (p : Packet) (s : State) : Host.Outcome State Fault Refusal :=
  .next (s.serveRead p .copyRead (some 3))

/-- FABRIC_STORE (R264, R275): it is performed before its acknowledgement leaves. -/
def execFabricStore (p : Packet) (s : State) : Host.Outcome State Fault Refusal :=
  let s := s.requested p p.payload.length
  match s.homePieces p.owner p.addr p.payload.length .store with
  | none => .next (s.refuseFor p (some 1))
  | some ps =>
    let ps := ps.filter fun b => 64 ≤ b.pos || p.mask.getLsbD b.pos
    if s.homePoisoned ps then .next (s.refuseFor p (some 1))
    else .next ((s.homeWrite p.cls ps p.payload).replyTo p 7 0 [])

/-- FABRIC_PUTR_DATA (R264, R347). -/
def execFabricPutrData (p : Packet) (s : State) : Host.Outcome State Fault Refusal :=
  let s := s.requested p p.payload.length
  match s.homePieces p.owner p.addr p.payload.length .copyWrite with
  | none => .next (s.refuseFor p (some 3))
  | some ps => .next ((s.homeWrite p.cls ps p.payload).replyTo p 7 0 [])

/-- The atomic of a kind (R304): bytes of its word, bytes of its payload, and the new word from the old. -/
def atomKind (asub : Nat) (payload : List Byte) : Option (Nat × Nat × (Nat → Nat)) :=
  let v := BitVec.ofNat 64 (ofLe (payload.take 8))
  let w := BitVec.ofNat 64 (ofLe (payload.drop 8))
  let plain (f : Dword → Dword) : Option (Nat × Nat × (Nat → Nat)) := some (8, 8, fun o => (plainAtom f o).1)
  match asub with
  | 0 => plain fun o => o + v
  | 1 => plain fun o => o &&& v
  | 2 => plain fun o => o ||| v
  | 3 => plain fun o => o ^^^ v
  | 4 => plain fun o => if v.toInt < o.toInt then v else o
  | 5 => plain fun o => if o.toInt < v.toInt then v else o
  | 6 => plain fun _ => v
  | 7 => some (4, 16, fun o => (casAtom 4 v w o).1)
  | 8 => some (8, 16, fun o => (casAtom 8 v w o).1)
  | _ => none

/-- Whether a slot holds or awaits the reservation of a word that pieces touch (R207, R242). -/
def State.wordsHeld (s : State) (ps : List Piece) : Bool := ps.any fun p => (s.resvQueue (wordKey p.key)) != []

/-- FABRIC_ATOMIC (R211, R242, R264, R304): it runs as one request at the home memory die, once no reservation of its word is held;
whether its confirmation is then lost is a free value (log 59). -/
def execFabricAtomic (p : Packet) (s : State) : Host.Outcome State Fault Refusal :=
  let asked := s
  let s := s.requested p 8
  match atomKind p.asub p.payload with
  | none => .next (s.refuseFor p (some 2))
  | some (n, len, f) =>
    match (if p.addr % n ≠ 0 ∨ p.payload.length ≠ len then none else s.homePieces p.owner p.addr n .atomic) with
    | none => .next (s.refuseFor p (some 2))
    | some ps =>
      if s.wordsHeld ps then .next (asked.post (.fabricAtomic p))
      else if ps.any s.piecePoisoned then .next (s.refuseFor p (some 2))
      else
        let (bs, s) := s.homeRead p.cls ps
        let old := ofLe bs
        let s := (s.homeWrite p.cls ps (leBytes n (f old))).drawn 1
        if Config.confirmationLost (s.draws - 1) then .next ((s.faultLog p.src p.owner 5 p.addr).replyTo p 9 1 [])
        else .next (s.replyTo p 9 0 (leBytes 8 old))

/-! Replies to the part's own requests (R211, R264, R304, R329, R347, R359). -/

/-- A request is changed. -/
def State.modReq (s : State) (id : Nat) (f : Request → Request) : State :=
  s.modIod fun d => { d with requests := d.requests.map fun q => if q.id = id then f q else q }
/-- A request is done with. -/
def State.reqDone (s : State) (id : Nat) : State := s.modIod fun d => d.answered id

/-- Requests of a group. -/
def Iod.groupOf (d : Iod) (g : Nat) : List Request := d.requests.filter fun q => q.group == g

/-- An unmarked load or store goes on once each request of its group has an answer: it completes, or the first of its
accesses that was refused or lost traps (R264, R265). -/
def State.settleGroup (s : State) (q : Request) : State :=
  let qs := s.iod.groupOf q.group
  if qs.any fun k => k.got.isNone && k.bad.isNone then s
  else
    let s := qs.foldl (fun (s : State) k => s.reqDone k.id) s
    if (s.slot q.slot).status ≠ Status.parked (.remote q.group) then s
    else match qs.find? fun k => k.bad.isSome with
      | some k => s.takeTrap k.slot { cause := cRWR, taddr := k.addr, reason := k.bad.getD 0 }
      | none =>
        match q.what with
        | .load dest =>
          match s.land q.slot dest (assemble dest.size (qs.map fun k => (k.pos, k.got.getD []))) q.addr with
          | .inl s => s.complete q.slot q.words id
          | .inr t => s.takeTrap q.slot t
        | _ => s.complete q.slot q.words id

/-- A relaxed access loses one of its requests; with the last it completes: a load writes its register, with zero when a
request failed (R237, R264). -/
def State.relaxedPart (s : State) (q : Request) (id : Nat) (data : List Byte) (fail : Option Nat) : State :=
  let s := s.reqDone q.id
  let x := s.slot q.slot
  match x.relaxedBy id with
  | none => s
  | some a =>
    let s := match fail with
      | some n => if a.failed then s else s.faultOf q.slot q.ctx { id := a.id, tepc := a.tepc, cause := cRWR, taddr := q.addr, reason := n }
      | none => s
    let old := assemble a.dest.size [(0, a.data)]
    let a := { a with
      away := a.away - 1
      failed := a.failed || fail.isSome
      data := if data = [] then a.data else assemble a.dest.size [(q.pos, data), (0, old)] }
    let x := (s.slot q.slot).setRelaxed a
    if a.away ≠ 0 then s.setSlot q.slot x
    else if a.store then s.setSlot q.slot (x.dropRelaxed id)
    else
      let bs := if a.failed then List.replicate a.dest.size 0 else a.data
      s.setSlot q.slot ((loadInto x a.dest bs).dropRelaxed id)

/-- An asynchronous fault of what a request carried (R261). -/
def State.reqFault (s : State) (q : Request) (cause reason : Nat) : State :=
  s.faultOf q.slot q.ctx { id := q.id, tepc := q.tepc, cause := cause, taddr := q.addr, reason := reason }

/-- The slot of a remote atomic goes on, its registers changed by a function (R211, R304). -/
def State.atomicEnds (s : State) (q : Request) (f : Slot → Slot) : State :=
  if (s.slot q.slot).status = Status.parked (.remote q.group) then s.complete q.slot q.words f else s

/-- A packet of a copy is refused or lost: the copy is suspended there; while it is suspended already, the packet is one to send
again (R152, R347). -/
def State.copyLoses (s : State) (id packet : Nat) (k : FaultKind) (va : Nat) : State :=
  match s.copy id with
  | none => s
  | some c =>
    if c.fault.isSome then s.modCopy id fun c => { c with lost := c.lost ++ [packet] } else s.copyStop c packet k va

/-- A request is refused (REASON 0) or lost (REASON 1): each kind reports as R264 and R265 say. -/
def State.requestFails (s : State) (q : Request) (reason : Nat) : State :=
  let kind : FaultKind := if reason = 0 then .remote else .link
  match q.what with
  | .load _ | .store => (s.modReq q.id fun k => { k with bad := some reason }).settleGroup q
  | .relaxedLoad id | .relaxedStore id => s.relaxedPart q id [] (some reason)
  | .atomic .. =>
    let s := s.reqDone q.id
    if reason = 1 then (s.reqFault q cRAI 0).atomicEnds q id
    else if (s.slot q.slot).status = Status.parked (.remote q.group) then
      s.takeTrap q.slot { cause := cRWR, taddr := q.addr, reason := 0 }
    else s
  | .put c p | .get c p => (s.reqDone q.id).copyLoses c p kind q.addr.toNat
  | .probe c => (s.reqDone q.id).copyLoses c 0 kind q.addr.toNat
  | .sendt => (s.reqDone q.id).reqFault q cRWR reason
  | .row id => (s.reqDone q.id).rowFails q id reason
  | .ckpt => (s.modIod fun d => { d with requests := d.requests.filter fun k => k.what ≠ .ckpt }).post (.checkpointEnd true)
  | .fetch _ =>
    let s := s.reqDone q.id
    if (s.slot q.slot).status = Status.parked (.remote q.group) then
      s.takeTrap q.slot { cause := cRWR, taddr := q.addr, reason := reason }
    else s

/-- Where the answer to a request goes from the I/O die, and in which class (R271, log 16): that to a PUTR to its streamer, the data of
a GETR with packets of its own, that to a SENDT to its slot when it is a refusal, the others to the slot that asked. -/
def State.answerWay (s : State) (q : Request) (op : Nat) : Option (Nat × Nat) :=
  match q.what with
  | .put c _ => (s.copy c).map fun c => (streamerNode c.handle, 2)
  | .get .. | .probe _ | .ckpt => none
  | .sendt => if op = 8 then some (nodeOf q.slot.place, 0) else none
  | _ => some (nodeOf q.slot.place, q.cls)

/-- What a reply answers: the request, after the flits are counted on its account and on the way from the I/O die. -/
def State.reply (s : State) (p : Packet) : Option (Request × State) :=
  match s.iod.request p.src p.tag with
  | none => none
  | some q =>
    let s := s.received p q.acct
    some (q, match s.answerWay q p.op with
      | some (node, cls) => s.transit ioNode node cls p.payload.length
      | none => s)

/-- Packets of a checkpoint (R285): one for each line of DRAM (DESIGN CHOICE, log 34). -/
def ckptPackets : Nat := dramTop / 64

/-- Every packet of the checkpoint was sent and is acknowledged. -/
def State.ckptDone (s : State) : Bool := ckptPackets ≤ s.iod.ckptSent && !s.iod.requests.any fun q => q.what == .ckpt

/-- FABRIC_ACK (R285, R347, R359): a remote store is performed, a PUTR packet has landed, a SENDT was taken. -/
def execFabricAck (p : Packet) (s : State) : Host.Outcome State Fault Refusal :=
  match s.reply p with
  | none => .next (s.received p 0)
  | some (q, s) =>
    match q.what with
    | .store => .next ((s.modReq q.id fun k => { k with got := some [] }).settleGroup q)
    | .relaxedStore id => .next (s.relaxedPart q id [] none)
    | .put c n => .next ((s.reqDone q.id).copyLanded c n)
    | .sendt => .next (s.reqDone q.id)
    | .row id => .next ((s.reqDone q.id).rowStored q id)
    | .ckpt =>
      let s := s.reqDone q.id
      .next (if s.ckptDone then s.post (.checkpointEnd false) else s)
    | _ => .next s

/-- FABRIC_REFUSAL (R264, R304, R347, R359). -/
def execFabricRefusal (p : Packet) (s : State) : Host.Outcome State Fault Refusal :=
  match s.reply p with
  | none => .next (s.received p 0)
  | some (q, s) => .next (s.requestFails q 0)

/-- FABRIC_ATOMIC_REPLY (R211, R304): the old value, or the loss of the confirmation. -/
def execFabricAtomicReply (p : Packet) (s : State) : Host.Outcome State Fault Refusal :=
  match s.reply p with
  | none => .next (s.received p 0)
  | some (q, s) =>
    match q.what with
    | .atomic d cas n =>
      let s := s.reqDone q.id
      if p.asub = 1 then .next ((s.reqFault q cRAI 0).atomicEnds q id)
      else
        let old := ofLe (p.payload.take 8)
        .next (s.atomicEnds q fun x =>
          if cas then atomRegs x d (BitVec.ofInt 64 (signedOf (8 * n) (old % 2 ^ (8 * n)))) (some (old == (x.getG d).toNat % 2 ^ (8 * n)))
          else atomRegs x d (BitVec.ofNat 64 old) none)
    | _ => .next s

/-- FABRIC_LOAD_DATA (R329, R347): data of a load or of a GETR request. Data of another length than was asked for is
dropped. -/
def execFabricLoadData (p : Packet) (s : State) : Host.Outcome State Fault Refusal :=
  match s.reply p with
  | none => .next (s.received p 0)
  | some (q, s) =>
    if p.payload.length ≠ q.n then .next s
    else match q.what with
      | .load _ => .next ((s.modReq q.id fun k => { k with got := some p.payload }).settleGroup q)
      | .relaxedLoad id => .next (s.relaxedPart q id p.payload none)
      | .get c n =>
        let s := s.reqDone q.id
        match s.copy c with
        | none => .next s
        | some k => match k.runs[n]? with
          | none => .next s
          | some w => .next (s.bringRun k n w p.payload)
      | .probe c => .next ((s.reqDone q.id).probed c p.payload)
      | .fetch off =>
        let s := s.reqDone q.id
        .next (if (s.slot q.slot).status = Status.parked (.remote q.group) then
          s.modSlot q.slot fun x => { x with far := x.far ++ [(off, BitVec.ofNat 32 (ofLe p.payload))], status := .ready }
        else s)
      | _ => .next s

/-- Far address of the first byte of a packet of a copy (R140). -/
def Copy.packetVA (c : Copy) (n : Nat) : Nat :=
  let t := (c.span n).1
  if c.kind = .cpyg then (match c.source t with | .far o => c.farVA o | .const _ => c.farVA 0) else c.farVA (farByte c.shape t)

/-- Far address of the first byte of a run (R140, R347). -/
def Copy.runVA (c : Copy) (n : Nat) : Nat := c.farVA (match c.runs[n]? with | some w => w.off | none => 0)

/-- A packet inside the part is lost (R265): its sender reports it as of its kind. A SENDT that was parked goes on. -/
def State.packetFails (s : State) (p : NetPacket) : State :=
  let gone := s.modPacket p.id fun p => { p with lost := true }
  match p.ev with
  | some (.messageArrival core _ _ _ (some r)) =>
    match s.sentMail core r with
    | some e => (gone.sentDone e.id).undelivered e core 1
    | none => s
  | some (.taggedMessage m) =>
    let r := taggedSlot m
    let x := s.slot r
    if x.status = Status.parked .sendt then
      let e : Sent := { id := s.fresh, slot := r, dst := 0, kind := .tagged m.tag, tepc := x.at, owner := m.owner, ctx := s.ctxOf r }
      (gone.bump.undelivered e m.tag 1).complete r 2 id
    else s
  | some (.copyPacketLand id n) =>
    match s.copy id with
    | some c => match c.inbound.find? fun d => d.id == n with
      | some d => (gone.modCopy id fun c => { c with inbound := c.inbound.filter fun e => e.run != d.run }).copyLoses id d.run .link (c.runVA d.run)
      | none => if c.away then s else gone.copyLoses id n .link (c.packetVA n)
    | none => s
  | some (.accessRequestArrival r id) | some (.accessReply r id) =>
    let gone := match s.goneStore r id with
      | some (d, e) => gone.modDie d fun y => { y with egress := y.egress.erase e }
      | none => gone
    match (s.slot r).relaxedBy id with
    | some a =>
      (gone.faultOf r (s.ctxOf r) { id := a.id, tepc := a.tepc, cause := cRWR, taddr := a.va, reason := 1 }).modSlot r fun x =>
        (if a.store then x else loadInto x a.dest (List.replicate a.dest.size 0)).dropRelaxed id
    | none => s
  | _ => s

/-- Numbers of REQUEST_TIMEOUT from here on name a slot, and whether the reply is lost: 2 x its key, and 1 for the reply (log 40). -/
def lossBase : Nat := 2 ^ 64

/-- The packets of a slot's next unmarked access are to be lost (R265, log 40). -/
def State.loseNext (s : State) (r : SlotRef) (reply : Bool) : State :=
  let x := s.slot r
  if x.status = Status.ready ∧ x.stage = .fresh ∧ x.since = 0 then s.setSlot r { x with stage := .lost reply } else s

/-- REQUEST_TIMEOUT (R265): a request without an answer is lost, or a packet on the interposer, or those of an access that is performed
in one step. -/
def execRequestTimeout (id : Nat) (s : State) : Host.Outcome State Fault Refusal :=
  match s.iod.requests.find? fun q => q.id == id with
  | some q => .next (s.requestFails q 1)
  | none => match s.packet id with
    | some p => .next (if p.leavesDie && !p.lost then s.packetFails p else s)
    | none => .next (if lossBase ≤ id then s.loseNext { place := placeOf ((id - lossBase) / 16), k := (id - lossBase) / 2 % 8 } (id % 2 == 1) else s)

end Sys2Proof.Machine
end

