-- ==== Sys2Proof/Machine/FloatScalar.lean ====
section
/-! DEFINITION. Scalar floating point (R55, R320, R324-R326). -/
namespace Sys2Proof.Machine

/-- Operand of a FOP word: the low w bits of a register (R324). -/
def fopCode (x : Slot) (f : FType) (a : R4) : Nat := (x.getG a).toNat % 2 ^ (ftype f).width
/-- Its value. -/
def fopVal (x : Slot) (f : FType) (a : R4) : FVal := (ftype f).value (fopCode x f a)

/-- A FOP result: FPX when an enabled flag was raised, else the code zero-extended (R163, R324). -/
def doneF (s : State) (r : SlotRef) (d : R4) (v : FRes) : Res := withFlags s r v.2 fun x => x.setG d (BitVec.ofNat 64 v.1)

/-- FADD (R161, R324). -/
def execFadd (q : R4) (f : FType) (b a d : R4) (s : State) : Host.Outcome State Fault Refusal :=
  issue (.fadd q f b a d) q s fun r x s => doneF s r d (fAdd (ftype f) x.rmode (fopVal x f a) (fopVal x f b))

/-- FSUB (R161, R324). -/
def execFsub (q : R4) (f : FType) (b a d : R4) (s : State) : Host.Outcome State Fault Refusal :=
  issue (.fsub q f b a d) q s fun r x s => doneF s r d (fAdd (ftype f) x.rmode (fopVal x f a) (fopVal x f b).neg)

/-- FMUL (R161, R324). -/
def execFmul (q : R4) (f : FType) (b a d : R4) (s : State) : Host.Outcome State Fault Refusal :=
  issue (.fmul q f b a d) q s fun r x s => doneF s r d (fMul (ftype f) x.rmode (fopVal x f a) (fopVal x f b))

/-- FDIV (R161, R324). -/
def execFdiv (q : R4) (f : FType) (b a d : R4) (s : State) : Host.Outcome State Fault Refusal :=
  issue (.fdiv q f b a d) q s fun r x s => doneF s r d (fDiv (ftype f) x.rmode (fopVal x f a) (fopVal x f b))

/-- FSQRT (R161, R324). -/
def execFsqrt (q : R4) (f : FType) (a d : R4) (s : State) : Host.Outcome State Fault Refusal :=
  issue (.fsqrt q f a d) q s fun r x s => doneF s r d (fSqrt (ftype f) x.rmode (fopVal x f a))

/-- FMIN (R161, R324). -/
def execFmin (q : R4) (f : FType) (b a d : R4) (s : State) : Host.Outcome State Fault Refusal :=
  issue (.fmin q f b a d) q s fun r x s => doneF s r d (fMinMax (ftype f) false (fopCode x f a) (fopCode x f b))

/-- FMAX (R161, R324). -/
def execFmax (q : R4) (f : FType) (b a d : R4) (s : State) : Host.Outcome State Fault Refusal :=
  issue (.fmax q f b a d) q s fun r x s => doneF s r d (fMinMax (ftype f) true (fopCode x f a) (fopCode x f b))

/-- FMA: rd := ra x rb + rd with one rounding (R55, R324). -/
def execFma (q : R4) (f : FType) (b a d : R4) (s : State) : Host.Outcome State Fault Refusal :=
  issue (.fma q f b a d) q s fun r x s => 
    doneF s r d (fFma (ftype f) x.rmode (fopVal x f a) (fopVal x f b) (fopVal x f d))

/-- FCLASS (R325). -/
def execFclass (q : R4) (f : FType) (a d : R4) (s : State) : Host.Outcome State Fault Refusal :=
  issue (.fclass q f a d) q s fun r x s => doneG s r d (BitVec.ofNat 64 (fClass (ftype f) (fopCode x f a)))

/-- FCMP (R326). -/
def execFcmp (q : R4) (f : FType) (c : Cond) (b a p : R4) (s : State) : Host.Outcome State Fault Refusal :=
  issue (.fcmp q f c b a p) q s fun r x s => 
    let v := fCmp c (fopVal x f a) (fopVal x f b)
    withFlags s r v.2 fun x => x.setQ p v.1

/-- CVT (R157, R320). -/
def execCvt (q : R4) (src dst : Fmt) (a d : R4) (s : State) : Host.Outcome State Fault Refusal :=
  issue (.cvt q src dst a d) q s fun r x s => 
    let v := convert dst src (valueIn src (x.getG a).toNat) x.rmode
    withFlags s r v.2 fun x => x.setG d (regOf dst v.1)

end Sys2Proof.Machine
end

