-- ==== Sys2Proof/Machine/Replay.lean ====
section
/-! DEFINITION. Calls, the sequencer and the carousels (R215-R232). -/
namespace Sys2Proof.Machine

/-! Calls (R222-R227). -/

/-- Object number of a call's operand; none when it is refused (R222). -/
def objectOf (v : Dword) : Option Nat := if v.extractLsb' 8 56 ≠ 0 then none else some v.toNat

/-- Whether an object is valid for an owner (R223). -/
def State.objectFor (s : State) (n : Nat) (owner : BitVec 16) : Bool := (s.obj n).valid && (s.obj n).ownerOf == owner

/-- Whether the die of a place holds a replica of an object. -/
def State.repHere (s : State) (p : Place) (n : Nat) : Bool :=
  match dieOf p with
  | some d => (s.obj n).repl d
  | none => false

/-- Entry j of an object's method table: from the caller's die, or from the sequencer's copy, that of the lowest die with a
replica (R215, R224). -/
def State.methodEntry (s : State) (p : Place) (n j : Nat) : Nat :=
  let o := s.obj n
  let d := match dieOf p with
    | some d => if o.repl d then d else ((replDies o.w0).head?).getD 0
    | none => ((replDies o.w0).head?).getD 0
  s.num (storeKey (placeKey (.carousel d)) (mtab o.w2 + 2 * j)) 2

/-- Applied position on the die of a place (R218). -/
def State.appliedAt (s : State) (p : Place) (n : Nat) : Nat :=
  match dieOf p with
  | some d => (s.replica d n).applied
  | none => 0

/-- A call that fails: its status word and position (R223). -/
def callFails (s : State) (r : SlotRef) (c : R4) (status : Dword) (pos : Nat) : Res :=
  .done (s.modSlot r fun x => ((x.setG c status).setG (c + 1) (BitVec.ofNat 64 pos)).setQ 15 false)

/-- A call that returns results (R223). -/
def callReturns (s : State) (r : SlotRef) (c : R4) (r0 r1 : Dword) : Res :=
  .done (s.modSlot r fun x => ((x.setG c r0).setG (c + 1) r1).setQ 15 true)

/-- NOOBJ, NOMETH, NOTRO, NOREP (R223). -/
def sNOOBJ : Dword := 2
/-- NOMETH. -/
def sNOMETH : Dword := 3
/-- NOTRO. -/
def sNOTRO : Dword := 4
/-- NOREP. -/
def sNOREP : Dword := 5

/-- The four arguments from a register on. -/
def callArgs (x : Slot) (b : R4) : List Dword := [x.getG b, x.getG (b + 1), x.getG (b + 2), x.getG (b + 3)]

/-- The call table with a position recorded, the newest last; the oldest of four is given up (R228). -/
def recordCall (t : List (Nat × Nat)) (o p : Nat) : List (Nat × Nat) :=
  let u := t.filter fun e => e.1 ≠ o
  (if 4 ≤ u.length then u.drop 1 else u) ++ [(o, p)]

/-- The call that has to be applied before the table has room for an object (R228). -/
def State.evictFirst (s : State) (r : SlotRef) (x : Slot) (o : Nat) : Option (Nat × Nat) :=
  if x.calls.any (fun e => e.1 == o) || x.calls.length < 4 then none
  else match x.calls with
    | e :: _ => if (s.obj e.1).valid && s.repHere r.place e.1 && s.appliedAt r.place e.1 < e.2 then some e else none
    | [] => none

/-- What a log entry says of its method: trap word, or the results (R216, R223). -/
def State.entryResult (s : State) (n p : Nat) : Option Dword × Dword × Dword :=
  let o := s.obj n
  let tl := s.logNum o p 14 2
  let t : MethodTrap :=
    { cause := s.logNum o p 11 1, code := tl % 2 ^ 11, budget := (tl / 2 ^ 11) % 2 = 1, overrun := (tl / 2 ^ 12) % 2 = 1 }
  (if s.logNum o p 10 1 = 2 then some (mtrpStatus t) else none, BitVec.ofNat 64 (s.logNum o p 48 8), BitVec.ofNat 64 (s.logNum o p 56 8))

/-- RCALL (R222-R224, R228, R230, R232). -/
def execRcall (q : R4) (method : BitVec 6) (c b a : R4) (wait : Bool) (s : State) : Host.Outcome State Fault Refusal :=
  issue (.rcall q method c b a wait) q s fun r x s =>
    match objectOf (x.getG a) with
    | none => trapOf cILL
    | some o =>
      match x.stage with
      | .noObject p => callFails s r c sNOOBJ p
      | .appended p =>
        if !wait then callReturns s r c (BitVec.ofNat 64 p) 0
        else if !(s.obj o).valid then callFails s r c sNOOBJ p
        else if s.appliedAt r.place o < p then .park s (.applied o p)
        else match s.entryResult o p with
          | (some w, _, _) => callFails (s.unpinOne o p) r c w p
          | (none, r0, r1) => callReturns (s.unpinOne o p) r c r0 r1
      | _ =>
        if !s.objectFor o x.owner then callFails s r c sNOOBJ 0
        else if s.methodEntry r.place o method.toNat % 2 = 0 then callFails s r c sNOMETH 0
        else if wait && !s.repHere r.place o then callFails s r c sNOREP 0
        else match s.evictFirst r x o with
          | some e => .park s (.evict e.1 e.2)
          | none => .park (s.route (nodeOf r.place) ioNode 1 false 40 (.replayAppend r)) (.append o method.toNat (callArgs x b))

/-- REPLAY_APPEND (R216, R217, R230): the entry is written, its position goes to the caller and the carousels are notified; a full log
keeps the call waiting. -/
def execReplayAppend (r : SlotRef) (s : State) : Host.Outcome State Fault Refusal :=
  match (s.slot r).status with
  | .parked (.append n method args) =>
    let o := s.obj n
    if !o.valid then .next s
    else if 2 ^ logN o.w0 ≤ o.tail - o.trim then .next (s.post (.replayAppend r))
    else
      let p := o.tail + 1
      let head := leBytes 8 p ++ leBytes 8 (method + slotId r % 2 ^ 16 * 2 ^ 32)
      let s := s.physWrite ioNode o.key (o.entryPA p) (head ++ args.flatMap fun v => leBytes 8 v.toNat)
      let s := (s.modObj n fun o => { o with tail := p }).charge (s.acctOf r) 6 1
      let s := (replDies o.w0).foldl (fun s d => s.transit ioNode (gate d) 1 16) (s.transit ioNode (nodeOf r.place) 1 16)
      let s := s.posts ((replDies o.w0).map .carouselApply)
      .next (s.modSlot r fun x => { x with status := .ready, stage := .appended p, calls := recordCall x.calls n p })
  | _ => .next s

/-- A read joins the carousel's FIFO, or waits for room (R225). -/
def State.queueRead (s : State) (r : SlotRef) (d o method : Nat) (args : List Dword) : Res :=
  if 64 ≤ (s.die d).reads.length then .park s (.readRoom d o)
  else
    let q : ReadReq := { obj := o, method := method, args := args, caller := r }
    .park ((s.modDie d fun x => { x with reads := x.reads ++ [q] }).post (.carouselRead d)) (.read d o)

/-- RREAD (R222, R223, R225, R232). -/
def execRread (q : R4) (method : BitVec 6) (c b a : R4) (lin : Bool) (s : State) : Host.Outcome State Fault Refusal :=
  issue (.rread q method c b a lin) q s fun r x s =>
    match objectOf (x.getG a) with
    | none => trapOf cILL
    | some o =>
      match x.stage with
      | .noObject _ => callFails s r c sNOOBJ 0
      | .readDone st r0 r1 => if st = 0 then callReturns s r c r0 r1 else callFails s r c st 0
      | st =>
        let e := s.methodEntry r.place o method.toNat
        if !s.objectFor o x.owner then callFails s r c sNOOBJ 0
        else if e % 2 = 0 then callFails s r c sNOMETH 0
        else match dieOf r.place with
          | none => callFails s r c sNOREP 0
          | some d =>
            if !(s.obj o).repl d then callFails s r c sNOREP 0
            else if e / 2 % 2 = 0 then callFails s r c sNOTRO 0
            else
              let need := match st with
                | .tailIs p => some p
                | _ => if lin then none else some (((x.calls.find? fun k => k.1 == o).map Prod.snd).getD 0)
              match need with
              | none => .park (s.post (.tailFetch r)) (.tail o)
              | some p =>
                if s.appliedAt r.place o < p then .park s (.applied o p)
                else s.queueRead r d o method.toNat (callArgs x b)

/-- TAIL_FETCH (R225). -/
def execTailFetch (r : SlotRef) (s : State) : Host.Outcome State Fault Refusal :=
  match (s.slot r).status with
  | .parked (.tail n) => .next ((s.exchange (nodeOf r.place) ioNode 1 0 8).modSlot r fun x => { x with status := .ready, stage := .tailIs (s.obj n).tail })
  | _ => .next s

/-- RWAIT (R226). -/
def execRwait (q : R4) (b a : R4) (s : State) : Host.Outcome State Fault Refusal :=
  issue (.rwait q b a) q s fun r x s =>
    match objectOf (x.getG a) with
    | none => trapOf cILL
    | some o =>
      match x.stage with
      | .noObject _ => doneQ s r 15 false
      | _ =>
        let p := (x.getG b).toNat
        if !s.objectFor o x.owner || !s.repHere r.place o then doneQ s r 15 false
        else if s.appliedAt r.place o < p then .park s (.applied o p)
        else doneQ s r 15 true

/-! Trimming and resync (R227, R229, R231). -/

/-- Dies that RTRIM's mask names; none when it does nothing (R227). -/
def State.trimDies (s : State) (o mask : Nat) : Option (List Nat) :=
  let named := (List.range 8).filter fun d => mask.testBit d
  let repl := replDies (s.obj o).w0
  if !(s.obj o).valid || !named.all repl.contains || repl.all named.contains then none else some named

/-- A resync of replicas is asked for (R227, R231): those that are not named are the good ones, and go on. -/
def State.trimStart (s : State) (n : Nat) (ds : List Nat) : State :=
  let s := (replDies (s.obj n).w0).foldl (fun (s : State) d =>
    if ds.contains d then s.modReplica d n fun x => { x with stopped := true, resync := true }
    else if (s.replica d n).resync then s
    else s.modReplica d n fun x => { x with stopped := false }) s
  s.posts ((ds.map fun d => .replicaResync n d) ++ ((replDies (s.obj n).w0).filter (!ds.contains ·)).map .carouselApply)

/-- RTRIM (R227, R229). -/
def execRtrim (q : R4) (a : R4) (s : State) : Host.Outcome State Fault Refusal :=
  issue (.rtrim q a) q s fun r x s =>
    let v := x.getG a
    if v.extractLsb' 16 48 ≠ 0 then trapOf cILL
    else
      let o := v.toNat % 2 ^ 8
      match x.stage with
      | .noObject _ => doneQ s r 15 false
      | .trimmed ok => doneQ s r 15 ok
      | _ =>
        match s.trimDies o (v.toNat / 2 ^ 8) with
        | none => doneQ s r 15 false
        | some [] => doneQ (s.trimNow o) r 15 true
        | some ds => .park (s.trimStart o ds) (.trim o ds)

/-- A resync of a die is done: RTRIMs that wait for no other go on (R227). -/
def State.resynced (s : State) (n d : Nat) : State :=
  let s := s.slots.foldl (fun (s : State) e =>
    match e.2.status with
    | .parked (.trim m ds) =>
      if m ≠ n then s
      else
        let left := ds.filter (· ≠ d)
        if left ≠ [] then { s with slots := tset {} s.slots e.1 { e.2 with status := .parked (.trim m left) } }
        else
          let s := s.trimNow n
          { s with slots := tset {} s.slots e.1 { e.2 with status := .ready, stage := .trimmed true } }
    | _ => s) s
  s.iod.hostWaits.foldl (fun (s : State) w =>
    match w.what with
    | .trim m ds =>
      if m ≠ n then s
      else
        let left := ds.filter (· ≠ d)
        if left = [] then (s.trimNow n).hostDone w true
        else s.modIod fun i => { i with hostWaits := i.hostWaits.map fun k => if k = w then { w with what := .trim m left } else k }
    | _ => s) s

/-- Whether a carousel runs a method of an object on its first slots. -/
def State.runsObject (s : State) (d n slots : Nat) : Bool :=
  (List.range slots).any fun k => match (s.slot { place := .carousel d, k := k }).method with
    | some m => m.obj == n
    | none => false

/-- The donor of a resync (R231): the replica that is neither stopped nor to be resynced, with the highest applied position. -/
def State.donor (s : State) (n d : Nat) : Option Nat :=
  ((replDies (s.obj n).w0).filter fun e => e ≠ d && !(s.replica e n).stopped && !(s.replica e n).resync).foldl (fun b e =>
    match b with
    | none => some e
    | some a => if (s.replica a n).applied < (s.replica e n).applied then some e else some a) none

/-- The code that a majority of replicas reported at a position (R231). -/
def majority (codes : List (Nat × Nat)) : Option Nat :=
  (codes.find? fun c => codes.length < 2 * (codes.filter fun d => d.2 == c.2).length).map Prod.snd

/-- Codes of a position that every replica has reported are compared (R231): a replica that was
resynced past it has none. Replicas that differ from the majority are resynced; without one the object goes to the replay-resync duty. -/
def State.compareCodes (s : State) (n p : Nat) : State :=
  let o := s.obj n
  let cs := (o.codes.filter fun c => c.2.1 == p).map fun c => (c.1, c.2.2)
  if (replDies o.w0).any fun d => (s.replica d n).applied < p && !cs.any fun c => c.1 == d then s
  else
    let s := s.modObj n fun o => { o with codes := o.codes.filter fun c => c.2.1 != p }
    let stop (s : State) (d : Nat) : State := s.modReplica d n fun x => { x with stopped := true }
    match majority cs with
    | some v =>
      (cs.filter fun c => c.2 != v).foldl (fun s c => s.poolFault c.1 n) s
    | none => (cs.foldl (fun s c => stop s c.1) s).duty 0 4 0 (BitVec.ofNat 64 n) false

/-- Codes that waited for a replica that is past their position now (R231). -/
def State.compareOld (s : State) (n p : Nat) : State :=
  ((s.obj n).codes.filter fun c => c.2.1 ≤ p).foldl (fun s c => s.compareCodes n c.2.1) s

/-- Whether a word of a replica's block is poisoned. -/
def State.blockPoisoned (s : State) (d n : Nat) : Bool :=
  (List.range (s.obj n).blockBytes).any fun a => s.poisoned (s.blockKey d n a)

/-- REPLICA_RESYNC (R231): the donor stands between entries and the target runs nothing of the object; a replica that does not pause any more goes on; the state block and the
position are copied, its codes are void, and both go on. Without a good replica the target waits for one. -/
def execReplicaResync (n die : Nat) (s : State) : Host.Outcome State Fault Refusal :=
  let o := s.obj n
  if !o.valid || !o.repl die then .next (s.resynced n die)
  else match s.donor n die with
    | none => .next (s.post (.replicaResync n die))
    | some e =>
      if s.runsObject e n 1 || s.runsObject die n 8 then
        .next ((((replDies o.w0).filter (· ≠ e)).foldl (fun s d => s.postOnce (.carouselApply d)) s).post (.replicaResync n die))
      else if s.blockPoisoned e n then .next ((s.poolFault e n).post (.replicaResync n die))
      else
        let p := (s.replica e n).applied
        let s := (List.range o.blockBytes).foldl (fun s a =>
          (s.setByte (s.blockKey die n a) (s.byte (s.blockKey e n a))).setPoison (s.blockKey die n a) false) s
        let s := s.modReplica die n fun x => { x with applied := p, stopped := false, resync := false }
        let s := s.modObj n fun o => { o with codes := o.codes.filter fun c => c.1 != die }
        let s := (s.resynced n die).compareOld n p
        .next ((s.reportApplied die n p).posts (.carouselRead die :: (replDies o.w0).map .carouselApply))

/-- APPLIED_POSITION_REPORT (R218, R229, R231): the oldest report on its way comes in, with the position it was sent with. -/
def execAppliedPositionReport (die n : Nat) (s : State) : Host.Outcome State Fault Refusal :=
  let o := s.obj n
  if !o.valid || !o.repl die then .next s
  else match (s.replica die n).onWay with
    | [] => .next s
    | p :: rest =>
      let s := s.modReplica die n fun x => { x with reported := p, onWay := rest }
      let s := s.modObj n fun o => { o with reported := tset 0 o.reported die p }
      let ps := (o.codes.filter fun c => c.1 == die).map fun c => c.2.1
      .next ((ps.foldl (fun s q => s.compareCodes n q) s).trimNow n)

/-! Methods (R218-R221). -/

/-- A method context as it starts (R219). -/
def methodSlot (d k : Nat) (m : Method) (entry caller : Nat) (args : List Dword) : SlotRef × Slot :=
  let x : Slot :=
    { status := .ready, pc := BitVec.ofNat 16 (entry / 4 * 4), q := 1, depth := 1, wsp := BitVec.ofNat 16 (0xF000 + 512 * k)
      wlim := BitVec.ofNat 16 (0xF200 + 512 * k), method := some m }
  let arg (i : Nat) : Dword := (args[i]?).getD 0
  let x := (x.setG 2 (BitVec.ofNat 64 caller)).setG 3 (BitVec.ofNat 64 m.pos)
  ({ place := .carousel d, k := k }, (((x.setG 4 (arg 0)).setG 5 (arg 1)).setG 6 (arg 2)).setG 7 (arg 3))

/-- Whether a replica is the donor of a resync that is due: it pauses between entries (R231). -/
def State.donates (s : State) (d n : Nat) : Bool :=
  (replDies (s.obj n).w0).any fun e => (s.replica e n).resync && s.donor n e == some d

/-- Whether an object has an entry that a die may apply. -/
def State.pendingOn (s : State) (d n : Nat) : Bool :=
  let o := s.obj n
  o.valid && o.repl d && !(s.replica d n).stopped && !s.donates d n && (s.replica d n).applied < o.tail

/-- The object whose turn it is on a carousel (R218): one entry from each in turn, in ascending number. The first round starts above object 0 (log 89). -/
def State.turnOf (s : State) (d : Nat) : Option Nat :=
  let ns := (s.objects.map Prod.fst).filter fun n => s.pendingOn d n
  match ns.find? fun n => (s.die d).turn < n with
  | some n => some n
  | none => ns.head?

/-- CAROUSEL_APPLY (R218, R219): slot 0 starts the next entry. -/
def execCarouselApply (die : Nat) (s : State) : Host.Outcome State Fault Refusal :=
  let zero : SlotRef := { place := .carousel die, k := 0 }
  if (s.slot zero).status ≠ Status.free then .next s
  else match s.turnOf die with
    | none => .next s
    | some n =>
      let o := s.obj n
      let p := (s.replica die n).applied + 1
      let j := s.logNum o p 8 1 % 64
      let e := s.methodEntry zero.place n j
      let m : Method :=
        { obj := n, pos := p, ro := e / 2 % 2 = 1, left := budgetOf o.w2, wbuf := [], caller := none }
      let args := [16, 24, 32, 40].map fun off => BitVec.ofNat 64 (s.logNum o p off 8)
      let (r, x) := methodSlot die 0 m e (s.logNum o p 12 2) args
      .next (((s.ownLines (gate die) false (o.entryPA p) 64).modDie die fun y => { y with turn := n }).setSlot r x)

/-- Whether a commit is under way on a carousel (R221). -/
def State.committing (s : State) (d : Nat) : Bool :=
  match (s.slot { place := .carousel d, k := 0 }).status with
  | .parked _ => true
  | _ => false

/-- CAROUSEL_READ (R218, R221, R225): the oldest read of the FIFO starts on a free slot, unless a commit is under way. g2 has room for the low 16 bits of a
control core's SLOT (log 90). -/
def execCarouselRead (die : Nat) (s : State) : Host.Outcome State Fault Refusal :=
  match (s.die die).reads.find? fun q => !(s.replica die q.obj).resync with
  | none => .next s
  | some q =>
    let rest := (s.die die).reads.erase q
    let free := (List.range 7).find? fun k => (s.slot { place := .carousel die, k := k + 1 }).status == Status.free
    match free with
    | none => .next s
    | some k =>
      if s.committing die then .next (s.post (.carouselRead die))
      else
        let o := s.obj q.obj
        let e := s.methodEntry (.carousel die) q.obj q.method
        let m : Method :=
          { obj := q.obj, pos := 0, ro := true, left := budgetOf o.w2, wbuf := [], caller := some q.caller, num := q.method, args := q.args }
        let (r, x) := methodSlot die (k + 1) m e (slotId q.caller % 2 ^ 16) q.args
        let s := (s.modDie die fun y => { y with reads := rest }).setSlot r x
        .next (if rest = [] then s else s.post (.carouselRead die))

end Sys2Proof.Machine
end

