-- ==== Sys2Proof/Machine/HostCmd.lean ====
section
/-! DEFINITION. Duties served by a host: events, their acknowledgement, and the host's commands (R292-R295). -/
namespace Sys2Proof.Machine

/-! Events (R294). -/

/-- An OP 12 packet of a host has come in (R265, R277, R282). -/
def State.hostPacket (s : State) (device : Nat) : State := s.cameIn (s.iod.portOf device) 64 0

/-- HOST_EVENT_ACK (R294, R295): the event is acknowledged by the host it was sent to. -/
def execHostEventAck (port device seq code : Nat) (s : State) : Host.Outcome State Fault Refusal :=
  .next ((s.hostPacket device).modIod fun d => { d with events := d.events.filter fun e =>
    !(e.port == port && e.host == device && e.seq == seq && e.code == code) })

/-- Where Penvis gets an event (R292): CC0 of the die it arose on, or of the I/O die. -/
def dutyDest (e : DutyEvent) : Nat := if e.code ≤ 3 then e.socket else 0

/-- DUTY_HOST_TIMEOUT (R294): the function goes back to Penvis with every event that no host has acknowledged. -/
def execDutyHostTimeout (f : Nat) (s : State) : Host.Outcome State Fault Refusal :=
  let es := s.iod.events.filter fun e => e.f == f
  match es with
  | [] => .next s
  | e :: _ =>
    let s := s.modIod fun d => { d with
      duty := d.duty &&& ~~~((1 : Dword) <<< f)
      events := d.events.filter fun e => e.f != f
      mgmt := d.mgmt ++ [.duty f e.host] }
    .next (es.foldl (fun (s : State) e => s.dutyMessage (dutyDest e) e.code e.socket e.payload) s)

/-! Commands (R293, R295). -/

/-- Whether the table allows a command for a function; the value tells WAKE's COPY. -/
def commandAllowed (f code : Nat) (value : Dword) : Bool :=
  code == 9 || code == 10 ||
  match f with
  | 0 => (code == 1 && !value.getLsbD 17) || code == 8
  | 1 => code == 1 && value.getLsbD 17
  | 2 => code == 2 || code == 8
  | 3 => code == 3
  | 4 => code == 4 || code == 5
  | 5 => code == 7
  | 6 => code == 6 || code == 8
  | _ => false

/-- Status that turns a command away: 2 for a function above 6, 1 when the function is in hardware mode, the sender is not its
host, the port has no session key, or the table does not allow it. -/
def State.commandRefused (s : State) (device f code : Nat) (value : Dword) : Option Nat :=
  let port := s.iod.portOf device
  if 6 < f then some 2
  else if !s.iod.duty.getLsbD f || (tget 0 s.iod.dutyHost f).toNat % 2 ^ 16 != device || !s.iod.portUp port || !commandAllowed f code value then
    some 1
  else none

/-- Who sends a command. -/
structure Cmd where
  device : Nat
  f : Nat
  code : Nat
  socket : Nat
  seq : Nat
  deriving DecidableEq, Repr

/-- The reply to a command. -/
def State.cmdReply (s : State) (c : Cmd) (status : Nat) (q15 : Bool) (tail : List Byte) : State :=
  s.hostReply c.device c.f c.code c.socket c.seq status q15 tail

/-- A command: turned away, refused for a bad argument, or run. -/
def command (s : State) (c : Cmd) (value : Dword) (bad : Bool) (run : State → State) : Host.Outcome State Fault Refusal :=
  let s := s.hostPacket c.device
  match s.commandRefused c.device c.f c.code value with
  | some st => .next (s.cmdReply c st false [])
  | none => if bad then .next (s.cmdReply c 2 false []) else .next (run s)

/-- A command that completes at once. -/
def plainCommand (s : State) (c : Cmd) (value : Dword) (bad : Bool) (run : State → State) : Host.Outcome State Fault Refusal :=
  command s c value bad fun s => (run s).cmdReply c 0 false []

/-- A command waits. -/
def State.cmdWait (s : State) (c : Cmd) (what : HostWhat) : State :=
  s.modIod fun d => { d with hostWaits := d.hostWaits ++ [{ device := c.device, f := c.f, code := c.code, socket := c.socket, seq := c.seq, what := what }] }

/-- HOST_WAKE (R141, R295): on the slots and streamers of the die at the socket. -/
def execHostWake (device f socket seq : Nat) (value : Dword) (s : State) : Host.Outcome State Fault Refusal :=
  plainCommand s { device := device, f := f, code := 1, socket := socket, seq := seq } value
    (decide (16 < socket) || value.extractLsb' 18 46 != 0) fun s => s.wakeAt (some socket) value

/-- HOST_BCMD (R124, R295). -/
def execHostBcmd (device f socket seq : Nat) (value : Dword) (s : State) : Host.Outcome State Fault Refusal :=
  plainCommand s { device := device, f := f, code := 2, socket := socket, seq := seq } value
    (socket == 0 || decide (8 < socket)) fun s => s.bcmdWrite (socket - 1) value

/-- HOST_RTRIM (R227, R295). -/
def execHostRtrim (device f socket seq : Nat) (value : Dword) (s : State) : Host.Outcome State Fault Refusal :=
  let c : Cmd := { device := device, f := f, code := 3, socket := socket, seq := seq }
  command s c value (value.extractLsb' 16 48 != 0) fun s =>
    let o := value.toNat % 2 ^ 8
    match s.trimDies o (value.toNat / 2 ^ 8) with
    | none => s.cmdReply c 0 false []
    | some [] => (s.trimNow o).cmdReply c 0 true []
    | some ds => (s.trimStart o ds).cmdWait c (.trim o ds)

/-- HOST_ARM (R249, R295): a poisoned descriptor counts as a bad argument, and one that is no DRAM, or whose bank-image table is none,
as malformed: there is no slot to take the SEGV of R21 (log 39). -/
def execHostArm (device f socket seq : Nat) (index rect desc tag : Dword) (s : State) : Host.Outcome State Fault Refusal :=
  let c : Cmd := { device := device, f := f, code := 4, socket := socket, seq := seq }
  let poison := (descPieces desc.toNat).any s.piecePoisoned
  command s c 0 (armIll index rect || tag.extractLsb' 32 32 != 0 || poison) fun s =>
    let w := rect.extractLsb' 0 32
    let e := s.armErr index.toNat w desc.toNat tag.toNat
    (s.armTst index.toNat w desc.toNat tag.toNat).cmdReply c 0 (e == 0) (leBytes 8 e)

/-- HOST_DISARM (R252, R295). -/
def execHostDisarm (device f socket seq : Nat) (index : Dword) (s : State) : Host.Outcome State Fault Refusal :=
  let c : Cmd := { device := device, f := f, code := 5, socket := socket, seq := seq }
  let n := index.toNat
  command s c 0 (decide (1024 ≤ n)) fun s =>
    match (s.tst n).state with
    | 0 => s.cmdReply c 0 false []
    | 3 => s.cmdWait c (.disarm n false)
    | _ => (s.closeTst n none).cmdWait c (.disarm n true)

/-- HOST_MIGC (R143, R295). -/
def execHostMigc (device f socket seq : Nat) (value : Dword) (s : State) : Host.Outcome State Fault Refusal :=
  plainCommand s { device := device, f := f, code := 6, socket := socket, seq := seq } value
    (decide (socket < 9) || decide (16 < socket)) fun s => s.migcWrite (socket - 9) value (value.getLsbD 0)

/-- HOST_CKPT (R285, R295). -/
def execHostCkpt (device f socket seq : Nat) (value : Dword) (s : State) : Host.Outcome State Fault Refusal :=
  plainCommand s { device := device, f := f, code := 7, socket := socket, seq := seq } value false fun s =>
    s.ckptWrite value (value.getLsbD 0)

/-- HOST_TLBI (R136, R295): its reply leaves once every die has acknowledged. -/
def execHostTlbi (device f socket seq : Nat) (value scope : Dword) (s : State) : Host.Outcome State Fault Refusal :=
  let c : Cmd := { device := device, f := f, code := 8, socket := socket, seq := seq }
  command s c value (decide (2 < scope.toNat)) fun s =>
    let sc : TlbScope := if scope = 0 then .page else if scope = 1 then .owner else .all
    (s.tlbiGo none sc value).cmdWait c (.tlbi s.fresh)

/-- The bytes of a physical access to DRAM (R288). -/
def physPieces (pa n : Nat) : List Piece :=
  (List.range n).map fun i => { pos := i, key := hashKey (pa + i), n := 1, tag := dramTag 0 (pa + i) }

/-- A physical access in MMIO. -/
def inMmio (pa n : Nat) : Bool := isMmio pa && isMmio (pa + n - 1)

/-- The packets of a host's access to a register (R272, log 16). -/
def State.hostTraffic (s : State) (pa request reply : Nat) : State := s.exchange ioNode (windowNode (mmioSock pa)) 0 request reply
/-- HOST_PHYSICAL_WRITE (R288, R295, R388). -/
def execHostPhysicalWrite (device f socket seq : Nat) (pa : Dword) (data : List Byte) (s : State) : Host.Outcome State Fault Refusal :=
  let n := data.length
  let a := pa.toNat
  let ps := physPieces a n
  plainCommand s { device := device, f := f, code := 9, socket := socket, seq := seq } 0
    (n == 0 || decide (32 < n) || !(inMmio a n || (inDram a n && !s.homePoisoned ps))) fun s =>
      if inMmio a n then (s.hostTraffic a n 0).mmioWrite a data else s.homeWrite 0 ps data

/-- HOST_PHYSICAL_READ (R288, R295, R388). -/
def execHostPhysicalRead (device f socket seq : Nat) (pa : Dword) (length : Nat) (s : State) : Host.Outcome State Fault Refusal :=
  let c : Cmd := { device := device, f := f, code := 10, socket := socket, seq := seq }
  let a := pa.toNat
  let ps := physPieces a length
  command s c 0
    (length == 0 || decide (32 < length) || !(inMmio a length || (inDram a length && !ps.any s.piecePoisoned))) fun s =>
      let (bs, s) := if inMmio a length then (s.hostTraffic a 0 length).mmioRead a length else s.homeRead 0 ps
      s.cmdReply c 0 false bs

/-- Device whose command a stimulus is. -/
def commandOf : Instr → Option Nat
  | .hostWake d .. | .hostBcmd d .. | .hostRtrim d .. | .hostArm d .. | .hostDisarm d .. | .hostMigc d .. | .hostCkpt d ..
  | .hostTlbi d .. | .hostPhysicalWrite d .. | .hostPhysicalRead d .. => some d
  | .fabricBadOp _ p => (commandWords p).map fun _ => p.src
  | _ => none

/-- The fabric port a stimulus comes in on, and whether it is OP 11. -/
def Iod.inputPort (d : Iod) (e : Instr) : Option (Nat × Bool) :=
  let spdm : Way → Option (Nat × Bool)
    | .management => none
    | .fabric port _ => some (port, true)
  match e with
  | .fabricLoadRequest p | .fabricStore p | .fabricAtomic p | .fabricGetrRequest p | .fabricPutrData p | .fabricAck p | .fabricRefusal p
  | .fabricAtomicReply p | .fabricLoadData p => some (d.portOf p.src, false)
  | .taggedMessage m => if m.device = 0 then none else some (d.portOf m.device, false)
  | .hostEventAck _ dev .. => some (d.portOf dev, false)
  | .getVersion m | .getCapabilities m | .negotiateAlgorithms m | .getDigests m | .getCertificate m | .challenge m | .getMeasurements m
  | .keyExchange m | .finish m | .keyUpdate m | .heartbeat m | .endSession m => spdm m.way
  | .vendorDefinedRequest way _ => spdm way
  | e => (commandOf e).map fun dev => (d.portOf dev, false)

/-- Whether a stimulus may act: a host's next command waits while one of its commands is not done (R295), and a packet comes in only on
a port that carries it: any on one that is up, OP 11 alone on one without a session key (R277). -/
def State.inputMay (s : State) (e : Instr) : Bool :=
  (match commandOf e with
    | some d => !s.iod.hostWaits.any fun w => w.device == d
    | none => true) &&
  match s.iod.inputPort e with
  | some (port, spdm) => s.iod.portUp port || (spdm && (s.iod.port port).state == 3)
  | none => true

end Sys2Proof.Machine
end

