-- ==== Sys2Proof/Machine/LoadStore.lean ====
section
/-! DEFINITION. Scalar loads and stores (R53, R57, R333, R364). -/
namespace Sys2Proof.Machine

/-- One aligned scalar access. -/
def scalarWant (off : Dword) (n : Nat) : List Want := [{ off := off, size := n, al := n, pos := 0 }]

/-- A scalar load of n bytes (R333). -/
def loadScalar (words : Nat) (r : SlotRef) (x : Slot) (s : State) (sg : BitVec 3) (off : Dword) (n : Nat) (signed : Bool) (d : R4) :
    Res :=
  doLoad words r x s sg (scalarWant off n) (.g d n signed) 0 true

/-- A scalar store of n bytes (R364). -/
def storeScalar (words : Nat) (r : SlotRef) (x : Slot) (s : State) (sg : BitVec 3) (off : Dword) (n : Nat) (v : Dword) : Res :=
  doStore words r x s sg (scalarWant off n) (fun p => [p]) (leBytes n v.toNat) 0 true

/-- Whether a long load's type is signed (R57). -/
def ldSigned : LdType → Bool
  | .i8 | .i16 | .i32 | .i64 => true
  | _ => false

/-- LD of 1 byte, signed (R333). -/
def execLdI8 (q : R4) (disp : Byte) (sg : BitVec 3) (a d : R4) (s : State) : Host.Outcome State Fault Refusal :=
  issue (.ldI8 q disp sg a d) q s fun r x s => loadScalar 1 r x s sg (addr8 x a disp 1) 1 true d

/-- LD of 2 bytes, signed (R333). -/
def execLdI16 (q : R4) (disp : Byte) (sg : BitVec 3) (a d : R4) (s : State) : Host.Outcome State Fault Refusal :=
  issue (.ldI16 q disp sg a d) q s fun r x s => loadScalar 1 r x s sg (addr8 x a disp 2) 2 true d

/-- LD of 4 bytes, signed (R333). -/
def execLdI32 (q : R4) (disp : Byte) (sg : BitVec 3) (a d : R4) (s : State) : Host.Outcome State Fault Refusal :=
  issue (.ldI32 q disp sg a d) q s fun r x s => loadScalar 1 r x s sg (addr8 x a disp 4) 4 true d

/-- LD of 8 bytes, signed (R333). -/
def execLdI64 (q : R4) (disp : Byte) (sg : BitVec 3) (a d : R4) (s : State) : Host.Outcome State Fault Refusal :=
  issue (.ldI64 q disp sg a d) q s fun r x s => loadScalar 1 r x s sg (addr8 x a disp 8) 8 true d

/-- LD of 1 byte, unsigned (R333). -/
def execLdN8 (q : R4) (disp : Byte) (sg : BitVec 3) (a d : R4) (s : State) : Host.Outcome State Fault Refusal :=
  issue (.ldN8 q disp sg a d) q s fun r x s => loadScalar 1 r x s sg (addr8 x a disp 1) 1 false d

/-- LD of 2 bytes, unsigned (R333). -/
def execLdN16 (q : R4) (disp : Byte) (sg : BitVec 3) (a d : R4) (s : State) : Host.Outcome State Fault Refusal :=
  issue (.ldN16 q disp sg a d) q s fun r x s => loadScalar 1 r x s sg (addr8 x a disp 2) 2 false d

/-- LD of 4 bytes, unsigned (R333). -/
def execLdN32 (q : R4) (disp : Byte) (sg : BitVec 3) (a d : R4) (s : State) : Host.Outcome State Fault Refusal :=
  issue (.ldN32 q disp sg a d) q s fun r x s => loadScalar 1 r x s sg (addr8 x a disp 4) 4 false d

/-- LD, long form (R333). -/
def execLdLong (q : R4) (t : LdType) (disp : Word) (sg : BitVec 3) (a d : R4) (s : State) : Host.Outcome State Fault Refusal :=
  issue (.ldLong q t disp sg a d) q s fun r x s => loadScalar 2 r x s sg (addr32 x a disp) (LdType.bytes t) (ldSigned t) d

/-- ST (R364). -/
def execSt (q : R4) (z : BitVec 2) (disp : Byte) (sg : BitVec 3) (a d : R4) (s : State) : Host.Outcome State Fault Refusal :=
  issue (.st q z disp sg a d) q s fun r x s =>
    storeScalar 1 r x s sg (addr8 x a disp (2 ^ z.toNat)) (2 ^ z.toNat) (x.getG d)

/-- ST, long form (R364). -/
def execStLong (q : R4) (z : BitVec 2) (disp : Word) (sg : BitVec 3) (a d : R4) (s : State) : Host.Outcome State Fault Refusal :=
  issue (.stLong q z disp sg a d) q s fun r x s => storeScalar 2 r x s sg (addr32 x a disp) (2 ^ z.toNat) (x.getG d)

end Sys2Proof.Machine
end

