-- ==== Sys2Proof/Machine/ParkResume.lean ====
section
/-! DEFINITION. The end of a park (R68, R69; log 5): whether what a parked slot waits for has come. -/
namespace Sys2Proof.Machine

/-- Whether a slot is the first of its core that parked on this cause: a freed entry goes to it. -/
def State.firstOn (s : State) (r : SlotRef) (p : Park) : Bool :=
  s.firstParked (slotsAt (placeKey r.place)) (· == p) == some r

/-- Whether a window lets an access go on, or gives it another outcome than waiting (R103). -/
def State.windowOpen (s : State) (core w : Nat) : Bool :=
  let e := s.entry core w
  if e.att then !e.land && !s.handing core w else !e.clm && e.fault

/-- Whether the instruction a slot is to issue still needs a register that a relaxed load has to write (R237). -/
def State.stillBlocked (s : State) (r : SlotRef) : Bool :=
  match s.fetch r with
  | .ins i _ => (s.slot r).relaxed.any fun a => a.blocks (gUse i) (vUse i)
  | _ => false

/-- Whether the earlier stores that an access waits for are out of its way (R234, R238); the address is a memory key, or of a
remote device. -/
def State.egressClear (s : State) (r : SlotRef) (key n : Nat) : Bool :=
  let p : Piece := { pos := 0, key := key, n := n, tag := 0 }
  !(s.slot r).unperformed [p] && !s.queuedStores (dieOf r.place) [p] && !s.awayMeets r (BitVec.ofNat 64 key) n

/-- Whether a position is applied on the slot's die, or never will be (R228, R232). -/
def State.appliedOrGone (s : State) (r : SlotRef) (o p : Nat) : Bool :=
  !(s.obj o).valid || match dieOf r.place with
    | some d => !(s.obj o).repl d || p ≤ (s.replica d o).applied
    | none => true

/-- Whether what a slot is parked on has come, so that its instruction issues again (R68). A park that an event ends
itself answers no: RECV, SWAIT, POP, PUSH, HOVR, SENDT, VOTE, matrix commands, replies, page faults; YIELD's ends with a
pre-emption and its restore alone. -/
def State.parkOver (s : State) (r : SlotRef) (p : Park) : Bool :=
  let x := s.slot r
  let k := placeKey r.place
  match p with
  | .window w => s.windowOpen k w
  | .handing c w => !s.handing c w
  | .relaxedFull => x.relaxed.length < 8
  | .scoreboard => !s.stillBlocked r
  | .egress key n => s.egressClear r key n
  | .lrwRoom key => (s.resvQueue key).length ≤ resvRoom && s.firstOn r p
  | .w5Full => (s.site k).w5.length < 8 && s.firstOn r p
  | .w4Full => (s.site k).w4.length < 8 && s.firstOn r p
  | .barw id => let b := tget {} x.bars id; b.a ≤ b.f
  | .drainRelaxed sc => x.drained sc
  | .nget dir => x.inLatch dir != []
  | .nput dir => match r.place with
    | .mesh c => !(s.slot (meshSlot (ringNeighbour x.rect c dir) r.k)).latchFull (opposite dir)
    | _ => true
  | .sendFull => (s.site k).outbound.length < 8 && s.firstOn r p
  | .sendHeld d => !s.sendtOut r d
  | .callFrame => !x.framesFull || x.spillBlocked
  | .retFrame => x.frames != [] || x.spilled == 0
  | .evict o pos => s.appliedOrGone r o pos
  | .applied o pos => s.appliedOrGone r o pos
  | .read d _ =>
    match x.stage with
    | .readDone .. => true
    | _ => x.method.isSome && s.readsIdle d
  | .readRoom d _ => (s.die d).reads.length < 64 && s.firstOn r p
  | .spawnFull d => (s.die d).ready.length < readyRoom && s.firstOn r p
  | .quitDrain => x.relaxed.isEmpty && !s.copyQueued r
  | .emptyStream => x.streamReady r.place
  | _ => false

/-- PARK_RESUME (R68, R69): a slot whose event has come leaves its park. Its instruction then completes in the same step
(Machine/Turn.lean), but for the next word of an empty stream, which issues at the slot's own position. -/
def execParkResume (r : SlotRef) (s : State) : Host.Outcome State Fault Refusal :=
  match (s.slot r).status with
  | .parked p =>
    if !s.parkOver r p then .next s
    else .next (s.modSlot r fun x => { x with status := .ready, since := if p = .emptyStream then 0 else x.since })
  | _ => .next s

end Sys2Proof.Machine
end

