-- ==== Sys2Proof/Machine/SystemEvents.lean ====
section
/-! DEFINITION. Power, reset, boot, the management port, freeze, heat and checkpoints (R23, R280, R281, R283-R285, R289). -/
namespace Sys2Proof.Machine

/-! Power, reset and boot (R23, R278, R280, R282, R289). -/

/-- What a power cycle leaves: the state after reset, the stimuli, and the model's own counters. -/
def State.cycled (s : State) (power : Bool) : State :=
  { State.reset with power := power, inputs := s.inputs, draws := s.draws, nextId := s.nextId }

/-- TCAL as a boot measures it (R278, log 6). -/
def measuredTcal (draw : Nat) : Table Dword :=
  (List.range 17).filterMap fun k =>
    let v := (Config.roundTrip draw k).toNat
    if v = 0 then none else some (k, BitVec.ofNat 64 v)

/-- The boot ROM verifies a first stage and measures it (R280). -/
def State.bootStage (s : State) (image signature : List Byte) : State :=
  let ok := Config.verifyFirstStage image signature
  s.modIod fun d => { d with
    verified := ok
    tcal := if ok then measuredTcal s.draws else d.tcal
    mr := if ok then tset 0 d.mr 0 (extendMr (tget 0 d.mr 0) (Config.sha256 image)) else d.mr }

/-- POWER_ON (R280). -/
def execPowerOn (image signature : List Byte) (s : State) : Host.Outcome State Fault Refusal :=
  .next (if s.power then s else (s.cycled true).bootStage image signature)

/-- NEW_FIRST_STAGE (R280): taken only after a verification that failed. -/
def execNewFirstStage (image signature : List Byte) (s : State) : Host.Outcome State Fault Refusal :=
  .next (if s.iod.verified then s else s.bootStage image signature)

/-- POWER_REMOVAL (R23). -/
def execPowerRemoval (s : State) : Host.Outcome State Fault Refusal := .next (s.cycled false)

/-- Memory that a cold reset leaves: all but the descriptor stores of control cores, which are zero (R286, R288). -/
def coldMem (m : List Host.Cell) : List Host.Cell :=
  m.filter fun c => c.1 < segStoreKey 8192 0 || segStoreKey 16384 0 ≤ c.1

/-- COLD_RESET (R16, R123, R282, R288, R289): every register takes its reset value; the time since power-on and the contents of
memory stay. -/
def execColdReset (s : State) : Host.Outcome State Fault Refusal :=
  .next { (s.cycled true) with
    mem := coldMem s.mem
    poison := s.poison.filter fun e => isDram e.1
    wrong := s.wrong.filter fun e => isDram e.1
    tags := s.tags
    iod := { tcal := if s.iod.verified then measuredTcal s.draws else [], ns := s.iod.ns, sent := s.iod.sent, mgmt := s.iod.mgmt, verified := s.iod.verified, throttled := s.iod.throttled } }

/-! The management port (R281, R283). -/

/-- An answer leaves on the management port. -/
def State.mgmtOut (s : State) (o : MgmtOut) : State := s.modIod fun d => { d with mgmt := d.mgmt ++ [o] }

/-- Bytes of the response to an SPDM request (log 14). -/
def State.spdm (s : State) (code : Nat) (request : List Byte) : List Byte := Config.spdmResponse code request s.draws

/-- Bytes in pieces of at most 512, a packet's payload each (R274, log 14). -/
def payloads (bs : List Byte) : List (List Byte) :=
  (List.range ((bs.length + 511) / 512)).map fun i => (bs.drop (512 * i)).take 512

/-- The part answers a request of n bytes the way it came in (R281): on the management port, or as OP 11 on the fabric port. -/
def State.respond (s : State) (way : Way) (n : Nat) (o : MgmtOut) (bs : List Byte) : State :=
  match way with
  | .management => s.mgmtOut o
  | .fabric port device => (payloads bs).foldl (fun (s : State) b => s.emit port 0
      { dst := device, src := 0, sock := 0, cls := 0, owner := 0, op := 11, tag := 0, addr := 0, asub := 0, len := b.length, seq := 0, payload := b }) (s.cameIn port n 0)

/-- An SPDM response without a signature of the device key. -/
def spdmAnswer (code : Nat) (way : Way) (request : List Byte) (s : State) : State :=
  let bs := s.spdm code request
  (s.respond way request.length (.answer bs) bs).drawn 1

/-- A signed SPDM response. -/
def spdmSigned (code : Nat) (way : Way) (request : List Byte) (s : State) : State :=
  let bs := s.spdm code request ++ Config.sign (s.spdm code request)
  (s.respond way request.length (.answer bs) bs).drawn 1

/-- What a session with the peer on a fabric port leaves of the port's keys, when the request succeeds (R274, R281, log 14): FINISH
and KEY_UPDATE give it a new key, whose packet count starts at 0; END_SESSION takes the key away. -/
def State.session (s : State) (code : Nat) (way : Way) (request : List Byte) (keyed : Bool) : State :=
  match way with
  | .management => s
  | .fabric port _ =>
    let x := s.iod.port port
    if (x.state = 2 ∨ x.state = 3) ∧ Config.spdmGranted code request s.draws then
      s.modIod fun d => d.setPort port
        (if keyed then { x with state := 2, session := x.session + 1, count := 0 } else { x with state := 3 })
    else s

/-- GET_VERSION (R281). -/
def execGetVersion (request : SpdmMessage) (s : State) : Host.Outcome State Fault Refusal :=
  .next (spdmAnswer 0x84 request.way request.bytes s)
/-- GET_CAPABILITIES (R281). -/
def execGetCapabilities (request : SpdmMessage) (s : State) : Host.Outcome State Fault Refusal :=
  .next (spdmAnswer 0xE1 request.way request.bytes s)
/-- NEGOTIATE_ALGORITHMS (R281). -/
def execNegotiateAlgorithms (request : SpdmMessage) (s : State) : Host.Outcome State Fault Refusal :=
  .next (spdmAnswer 0xE3 request.way request.bytes s)
/-- GET_DIGESTS (R281). -/
def execGetDigests (request : SpdmMessage) (s : State) : Host.Outcome State Fault Refusal :=
  .next (spdmAnswer 0x81 request.way request.bytes s)
/-- GET_CERTIFICATE (R281). -/
def execGetCertificate (request : SpdmMessage) (s : State) : Host.Outcome State Fault Refusal :=
  .next (spdmAnswer 0x82 request.way request.bytes s)
/-- CHALLENGE (R281). -/
def execChallenge (request : SpdmMessage) (s : State) : Host.Outcome State Fault Refusal :=
  .next (spdmSigned 0x83 request.way request.bytes s)
/-- KEY_EXCHANGE (R281). -/
def execKeyExchange (request : SpdmMessage) (s : State) : Host.Outcome State Fault Refusal :=
  .next (spdmSigned 0xE4 request.way request.bytes s)
/-- FINISH (R281). -/
def execFinish (request : SpdmMessage) (s : State) : Host.Outcome State Fault Refusal :=
  .next ((spdmAnswer 0xE5 request.way request.bytes s).session 0xE5 request.way request.bytes true)
/-- HEARTBEAT (R281). -/
def execHeartbeat (request : SpdmMessage) (s : State) : Host.Outcome State Fault Refusal :=
  .next (spdmAnswer 0xE8 request.way request.bytes s)
/-- KEY_UPDATE (R281). -/
def execKeyUpdate (request : SpdmMessage) (s : State) : Host.Outcome State Fault Refusal :=
  .next ((spdmAnswer 0xE9 request.way request.bytes s).session 0xE9 request.way request.bytes true)
/-- END_SESSION (R281). -/
def execEndSession (request : SpdmMessage) (s : State) : Host.Outcome State Fault Refusal :=
  .next ((spdmAnswer 0xEC request.way request.bytes s).session 0xEC request.way request.bytes false)

/-- The measurements by index (R281): MR0-MR7 as 1-8. -/
def State.measurements (s : State) : List (Nat × BitVec 256) := (List.range 8).map fun i => (i + 1, tget 0 s.iod.mr i)

/-- GET_MEASUREMENTS (R281). -/
def execGetMeasurements (request : SpdmMessage) (s : State) : Host.Outcome State Fault Refusal :=
  let bs := s.spdm 0xE0 (request.bytes ++ s.measurements.flatMap fun e => leBytes 32 e.2.toNat)
  let signed := bs ++ Config.sign bs
  .next ((s.respond request.way request.bytes.length (.measurements s.measurements signed) signed).drawn 1)

/-- The record of a snapshot (R283). -/
def State.snapshotRecord (s : State) (account : Nat) (nonce : List Byte) : List Byte :=
  leBytes 8 (s.iod.devid.toNat % 2 ^ 16 + account % 256 * 2 ^ 16) ++ leBytes 8 s.iod.snapshots ++ leBytes 8 s.iod.ns ++
    (nonce ++ List.replicate 32 0).take 32 ++
    ((List.range 8).flatMap fun i => leBytes 8 (tget 0 s.iod.accounts (8 * (account % 256) + i)).toNat) ++ List.replicate 8 0

/-- VENDOR_DEFINED_REQUEST (R283): a signed snapshot of an account. On the management port a request of the part's own sets the
quantum of a class (R255; its carrier: DESIGN CHOICE, log 73). -/
def execVendorDefinedRequest (way : Way) (asked : VendorAsk) (s : State) : Host.Outcome State Fault Refusal :=
  match asked with
  | .snapshot account nonce =>
    let s := s.tick.modIod fun d => { d with snapshots := d.snapshots + 1 }
    let record := s.snapshotRecord account nonce
    let bs := record ++ Config.sign record
    .next (s.respond way 33 (.answer bs) bs)
  | .quantum cls ns =>
    .next (if way = .management ∧ cls < 4 then s.modIod fun d => { d with quanta := tset 0 d.quanta cls ns } else s)
  | .load p => .next (if way = .management then s.loadAndArm p else s)

/-! Freeze (R284). -/

/-- FRZ_ASSERT (R284). -/
def execFrzAssert (s : State) : Host.Outcome State Fault Refusal := .next (s.modIod fun d => { d with frozen := true })

/-- THAW (R284): not once THTRIP_N was asserted. -/
def execThaw (s : State) : Host.Outcome State Fault Refusal :=
  .next (if s.iod.tripped then s else s.modIod fun d => { d with frozen := false })

/-- What a debug read shows (R284). -/
def State.debugged (s : State) : DebugTarget → MgmtOut
  | .mmio pa size => .debug (if isMmio pa then (s.mmioRead pa size).1 else [])
  | .g r n => .debug (leBytes 8 ((s.slot r).getG (BitVec.ofNat 4 n)).toNat)
  | .v r n => .debug (leBytes 64 ((s.slot r).getV (BitVec.ofNat 4 n)).toNat)
  | .m r n => .debug (leBytes 8 ((s.slot r).getM (BitVec.ofNat 3 n)).toNat)
  | .pred r => .debug (leBytes 2 ((s.slot r).q ||| 1).toNat)
  | .pc r => .debug (leBytes 2 (s.slot r).pc.toNat)
  | .creg r n => .debug (match (s.slot r).creg r n with
    | some v => leBytes 8 v.toNat
    | none => [])
  | .mem k => .cell (s.byte k) (s.poisoned k) (tget 0 s.wrong (poisonKey k))
  | .slot r => .slot (s.slot r)
  | .site p => .site (s.site p)
  | .bank b => .bank (s.bank b)
  | .die d => .die (s.die d)
  | .memoryDie m => .memoryDie (s.md m)
  | .turnstile n => .turnstile (s.tst n)
  | .object n => .object (s.obj n)
  | .router n => .router (s.router n)
  | .iod => .iod s.iod.toIodState
  | .copy id => .copy (s.copy id)
  | .reservations key => .reservations (tget [] s.resv key)
  | .barker d row k => .barker (s.barker d row k)
  | .sent => .sent s.sends s.barSends
  | .packets => .packets s.packets

/-- DEBUG_READ (R284): while frozen; a read pops nothing and changes nothing. -/
def execDebugRead (t : DebugTarget) (s : State) : Host.Outcome State Fault Refusal :=
  .next (if s.iod.frozen then s.mgmtOut (s.debugged t) else s)

/-! Heat (R23). -/

/-- THERMAL_REPORT (R23): at 105 degrees a record leaves and the clock falls; at 115 the part freezes until power is removed. -/
def execThermalReport (die : Nat) (celsius : Int) (s : State) : Host.Outcome State Fault Refusal :=
  let before := match (s.die die).hot with
    | some t => decide (105 ≤ t)
    | none => false
  let s := s.modDie die fun x => { x with hot := some celsius }
  let s := if 105 ≤ celsius then
      let s := s.modIod fun d => { d with throttled := true }
      if before then s else s.mgmtOut (.thermal die celsius)
    else s
  .next (if 115 ≤ celsius then s.modIod fun d => { d with tripped := true, frozen := true } else s)

/-- Whether every die was below 100 degrees at its last report. -/
def State.cool (s : State) : Bool := s.dies.all fun e => match e.2.hot with
  | some t => (t < 100 : Bool)
  | none => true

/-- THERMAL_CLOCK_RESTORE (R23). -/
def execThermalClockRestore (s : State) : Host.Outcome State Fault Refusal :=
  .next (if s.cool then s.modIod fun d => { d with throttled := false } else s)

/-! Checkpoints (R285). -/

/-- Contexts that are loaded, by turnstile. -/
def State.loadedContexts (s : State) : List Nat := (s.turnstiles.filter fun e => e.2.isLoaded).map Prod.fst

/-- A loaded context is pre-empted for a checkpoint. -/
def State.clearOut (s : State) (n : Nat) : State :=
  match s.ctx n with
  | some c => if (s.tst n).state = 2 ∧ (c.stopping = none ∨ c.stopping = some 1024) then s.pressOn n 1024 else s
  | none => s

/-- The line that packet n of a checkpoint carries: the 64 streamers, eight on each memory die, send theirs in turn, each the lines
of its own channel group (R137, R285; the order: DESIGN CHOICE, log 34). -/
def ckptLine (n : Nat) : Nat :=
  let g := n % 64
  let j := n / 64
  g / 8 * 2 ^ 38 + 4096 * (48 * (j / 384) + 6 * (g % 8) + j % 384 / 64) + 64 * (j % 64)

/-- A line as it lies in DRAM, under its owner's key (R145, R285). -/
def State.sealedLine (s : State) (k : Nat) : List Byte :=
  (List.range 64).map fun i => s.tagByte (k + i) (dramTag 0 0) i

/-- The next packet of the streams leaves, round-robin over the first ports that are up; with none of them up it is lost (R285, log
34). -/
def State.streamOut (s : State) (value : Dword) : State :=
  let ports := ((List.range 72).filter s.iod.portUp).take (value.extractLsb' 3 7).toNat
  let n := s.iod.ckptSent
  match ports[n % ports.length]? with
  | none => s.post (.checkpointEnd true)
  | some port =>
    let k := ckptLine n
    let dev := (value.extractLsb' 10 16).toNat
    let addr := BitVec.ofNat 64 (64 * (value.extractLsb' 26 38).toNat + dramTop / 8 * (k / 2 ^ 38) + k % 2 ^ 38)
    let q : Request :=
      { id := s.fresh, group := s.fresh, slot := { place := .ctl 0 0, k := 0 }, tepc := 0, words := 0, addr := addr, pos := 0, n := 64, got := none, what := .ckpt, dev := dev }
    let pk : Packet :=
      { dst := dev, src := 0, sock := 9 + k / 2 ^ 38, cls := 2, owner := 0, op := 5, tag := q.id % 2 ^ 32, addr := addr.toNat % 2 ^ 48, asub := 0, len := 64, seq := 0, payload := s.sealedLine k }
    let s := ((s.bump.drawn 64).modIod fun d => { d with ckptSent := n + 1, requests := d.requests ++ [q] }).charge 0 2 64
    let s := (s.transit (memNode (k / 2 ^ 38)) ioNode 2 64).emit port 0 pk
    if n + 1 < ckptPackets then s.post (.checkpointGo value) else s

/-- CHECKPOINT_GO (R285): every context is pre-empted and stays out until a command; then the streams leave. -/
def execCheckpointGo (value : Dword) (s : State) : Host.Outcome State Fault Refusal :=
  if s.iod.ckptStatus ≠ 1 then .next s
  else
    let s := s.loadedContexts.foldl State.clearOut s
    if s.loadedContexts ≠ [] then .next (s.post (.checkpointGo value))
    else
      let s : State := { s with turnstiles := s.turnstiles.map fun e =>
        (e.1, { e.2 with ctx := e.2.ctx.map fun c => { c with held := !c.unloaded } }) }
      .next (s.streamOut value)

/-- CHECKPOINT_END (R285, R292). -/
def execCheckpointEnd (lost : Bool) (s : State) : Host.Outcome State Fault Refusal :=
  if s.iod.ckptStatus ≠ 1 then .next s
  else
    let st := if lost then 3 else 2
    let s := s.modIod fun d => { d with ckptStatus := st }
    .next (s.duty 0 6 0 (BitVec.ofNat 64 st) false).schedule

end Sys2Proof.Machine
end

