-- ==== Sys2Proof/Machine/Vector.lean ====
section
/-! DEFINITION. Vector arithmetic, compares, moves, reductions and conversions (R48, R56, R370-R376, R380, R382-R384). -/
namespace Sys2Proof.Machine

/-- A masked vector result (R370): off lanes keep vd or become zero; FPX leaves vd unchanged (R163). -/
def vectorOp (s : State) (r : SlotRef) (x : Slot) (w n : Nat) (z : Bool) (m : BitVec 3) (d : R4) (f : Nat → FRes) : Res :=
  let old := x.getV d
  let mk := x.getM m
  let rs := (List.range n).map fun j => if maskOn mk w j then f j else (if z then 0 else lane old w j, 0)
  withFlags s r (rs.foldl (fun g y => g ||| y.2) 0) fun x => x.setV d (vecOf w (rs.map fun y => y.1))

/-- A masked vector result that copies or computes bits and raises nothing. -/
def vectorBits (s : State) (r : SlotRef) (x : Slot) (t : VType) (z : Bool) (m : BitVec 3) (d : R4) (f : Nat → Nat) : Res :=
  vectorOp s r x (VType.width t) (lanesOf t) z m d fun j => (f j, 0)

/-- An exact integer lane result: wrapped, or clamped under SAT (R371). -/
def intLane (x : Slot) (w : Nat) (v : Int) : FRes :=
  if x.sat then
    let y := clampS w v
    (narrow w y.1, if y.2 then fSAT else 0)
  else (narrow w v, 0)

/-- Lane j of a register. -/
def Slot.vlane (x : Slot) (t : VType) (a : R4) (j : Nat) : Nat := lane (x.getV a) (VType.width t) j
/-- Lane j read as a signed integer. -/
def Slot.vint (x : Slot) (t : VType) (a : R4) (j : Nat) : Int := signedOf (VType.width t) (x.vlane t a j)
/-- Lane j read as a float. -/
def Slot.vval (x : Slot) (t : VType) (a : R4) (j : Nat) : FVal := (vfmt t).value (x.vlane t a j)

/-- VADD, VSUB, VMUL, VFMA (R371): the float and the integer form of a lane. -/
def vectorArith (s : State) (r : SlotRef) (x : Slot) (t : VType) (z : Bool) (m : BitVec 3) (d : R4) (fl : Nat → FRes)
    (int : Nat → Int) : Res :=
  vectorOp s r x (VType.width t) (lanesOf t) z m d fun j =>
    if t.isFloat then fl j else intLane x (VType.width t) (int j)

/-- Minimum or maximum of two lanes (R380). -/
def minMaxLane (x : Slot) (t : VType) (max unsigned : Bool) (b a : R4) (j : Nat) : FRes :=
  if t.isFloat then fMinMax (vfmt t) max (x.vlane t a j) (x.vlane t b j)
  else
    let p := x.vlane t a j
    let q := x.vlane t b j
    let less := if unsigned then decide (p < q) else decide (x.vint t a j < x.vint t b j)
    (if less != max then p else q, 0)

/-- Shift of a lane (R372); `sign` is the arithmetic form. -/
def shiftLane (w : Nat) (left sign : Bool) (v k : Nat) : Nat :=
  if left then if k < w then v * 2 ^ k % 2 ^ w else 0
  else if sign then narrow w (signedOf w v / ((2 ^ (if k < w then k else w) : Nat) : Int))
  else if k < w then v / 2 ^ k else 0

/-- Mask bits of a compare (R374): w / 8 equal bits for each lane, lowest first. -/
def cmpMaskOf (w : Nat) (bs : List Bool) : Dword :=
  BitVec.ofNat 64 (ofLanes (w / 8) (bs.map fun b => if b then 2 ^ (w / 8) - 1 else 0))

/-- VCMP (R374). -/
def vectorCmp (s : State) (r : SlotRef) (t : VType) (md : BitVec 3) (f : Nat → Bool × BitVec 6) : Res :=
  let rs := (List.range (lanesOf t)).map f
  withFlags s r (rs.foldl (fun g y => g ||| y.2) 0) fun x => x.setM md (cmpMaskOf (VType.width t) (rs.map fun y => y.1))

/-- A float reduction in lane order (R382). -/
def redFloat (f : FFmt) (mode : Nat) (op : RedOp) : List Nat → FRes → FRes
  | [], y => y
  | u :: t, y =>
    let v := match op with
      | .sum => fAdd f mode (f.value y.1) (f.value u)
      | .min => fMinMax f false y.1 u
      | .max => fMinMax f true y.1 u
    redFloat f mode op t (v.1, y.2 ||| v.2)

/-- VRED's result (R161, R382): its bits and flags. The minimum or maximum of one lane is that of the lane with itself, so that a NaN
is the NaN written; the sum of one lane is the lane. -/
def reduce (x : Slot) (t : VType) (m : BitVec 3) (op : RedOp) (a : R4) : FRes :=
  let w := VType.width t
  let on := (List.range (lanesOf t)).filter fun j => maskOn (x.getM m) w j
  let ls := on.map fun j => x.vlane t a j
  if t.isFloat then
    let f := vfmt t
    match ls with
    | [] => (match op with | .sum => 0 | .min => f.infCode | .max => f.signed true f.infCode, 0)
    | y :: rest => redFloat f x.rmode op (if rest = [] ∧ op ≠ .sum then [y] else rest) (y, 0)
  else
    let is := ls.map (signedOf w)
    match op with
    | .sum => intLane x w (is.foldl (· + ·) 0)
    | .min => (narrow w (is.foldl (fun p q => if q < p then q else p) (2 ^ (w - 1) - 1 : Nat)), 0)
    | .max => (narrow w (is.foldl (fun p q => if p < q then q else p) (-((2 ^ (w - 1) : Nat) : Int))), 0)

/-- VCVT's result (R375): k elements; destination lanes above them are zero. -/
def vectorCvt (s : State) (r : SlotRef) (x : Slot) (src : Fmt) (ws : Nat) (z : Bool) (m : BitVec 3) (f : Fmt) (a d : R4) :
    Res :=
  let wd := Fmt.width f
  vectorOp s r x wd (512 / (if ws < wd then wd else ws)) z m d fun j => convert f src (valueIn src (lane (x.getV a) ws j)) x.rmode

/-- VADD (R371). -/
def execVadd (q : R4) (t : VType) (z : Bool) (m : BitVec 3) (b a d : R4) (s : State) : Host.Outcome State Fault Refusal :=
  issue (.vadd q t z m b a d) q s fun r x s => 
    vectorArith s r x t z m d (fun j => fAdd (vfmt t) x.rmode (x.vval t a j) (x.vval t b j))
      fun j => x.vint t a j + x.vint t b j

/-- VSUB (R371). -/
def execVsub (q : R4) (t : VType) (z : Bool) (m : BitVec 3) (b a d : R4) (s : State) : Host.Outcome State Fault Refusal :=
  issue (.vsub q t z m b a d) q s fun r x s => 
    vectorArith s r x t z m d (fun j => fAdd (vfmt t) x.rmode (x.vval t a j) (x.vval t b j).neg)
      fun j => x.vint t a j - x.vint t b j

/-- VMUL (R371). -/
def execVmul (q : R4) (t : VType) (z : Bool) (m : BitVec 3) (b a d : R4) (s : State) : Host.Outcome State Fault Refusal :=
  issue (.vmul q t z m b a d) q s fun r x s => 
    vectorArith s r x t z m d (fun j => fMul (vfmt t) x.rmode (x.vval t a j) (x.vval t b j))
      fun j => x.vint t a j * x.vint t b j

/-- VFMA: vd := va x vb + vd (R56, R371). -/
def execVfma (q : R4) (t : VType) (z : Bool) (m : BitVec 3) (b a d : R4) (s : State) : Host.Outcome State Fault Refusal :=
  issue (.vfma q t z m b a d) q s fun r x s => 
    vectorArith s r x t z m d (fun j => fFma (vfmt t) x.rmode (x.vval t a j) (x.vval t b j) (x.vval t d j))
      fun j => x.vint t a j * x.vint t b j + x.vint t d j

/-- VMIN (R380). -/
def execVmin (q : R4) (t : VType) (z : Bool) (m : BitVec 3) (b a d : R4) (s : State) : Host.Outcome State Fault Refusal :=
  issue (.vmin q t z m b a d) q s fun r x s => 
    vectorOp s r x (VType.width t) (lanesOf t) z m d (minMaxLane x t false false b a)

/-- VMAX (R380). -/
def execVmax (q : R4) (t : VType) (z : Bool) (m : BitVec 3) (b a d : R4) (s : State) : Host.Outcome State Fault Refusal :=
  issue (.vmax q t z m b a d) q s fun r x s => 
    vectorOp s r x (VType.width t) (lanesOf t) z m d (minMaxLane x t true false b a)

/-- VMIN on unsigned lanes (R380). -/
def execVminN (q : R4) (t : VType) (z : Bool) (m : BitVec 3) (b a d : R4) (s : State) : Host.Outcome State Fault Refusal :=
  issue (.vminN q t z m b a d) q s fun r x s => 
    vectorOp s r x (VType.width t) (lanesOf t) z m d (minMaxLane x t false true b a)

/-- VMAX on unsigned lanes (R380). -/
def execVmaxN (q : R4) (t : VType) (z : Bool) (m : BitVec 3) (b a d : R4) (s : State) : Host.Outcome State Fault Refusal :=
  issue (.vmaxN q t z m b a d) q s fun r x s => 
    vectorOp s r x (VType.width t) (lanesOf t) z m d (minMaxLane x t true true b a)

/-- VAND (R372). -/
def execVand (q : R4) (t : VType) (z : Bool) (m : BitVec 3) (b a d : R4) (s : State) : Host.Outcome State Fault Refusal :=
  issue (.vand q t z m b a d) q s fun r x s => 
    vectorBits s r x t z m d fun j => x.vlane t a j &&& x.vlane t b j

/-- VOR (R372). -/
def execVor (q : R4) (t : VType) (z : Bool) (m : BitVec 3) (b a d : R4) (s : State) : Host.Outcome State Fault Refusal :=
  issue (.vor q t z m b a d) q s fun r x s => 
    vectorBits s r x t z m d fun j => x.vlane t a j ||| x.vlane t b j

/-- VXOR (R372). -/
def execVxor (q : R4) (t : VType) (z : Bool) (m : BitVec 3) (b a d : R4) (s : State) : Host.Outcome State Fault Refusal :=
  issue (.vxor q t z m b a d) q s fun r x s => 
    vectorBits s r x t z m d fun j => x.vlane t a j ^^^ x.vlane t b j

/-- VSHL (R372). -/
def execVshl (q : R4) (t : VType) (z : Bool) (m : BitVec 3) (b a d : R4) (s : State) : Host.Outcome State Fault Refusal :=
  issue (.vshl q t z m b a d) q s fun r x s => 
    vectorBits s r x t z m d fun j => shiftLane (VType.width t) true false (x.vlane t a j) (x.vlane t b j)

/-- VSHR, logical (R372). -/
def execVshrLogical (q : R4) (t : VType) (z : Bool) (m : BitVec 3) (b a d : R4) (s : State) : Host.Outcome State Fault Refusal :=
  issue (.vshrLogical q t z m b a d) q s fun r x s => 
    vectorBits s r x t z m d fun j => shiftLane (VType.width t) false false (x.vlane t a j) (x.vlane t b j)

/-- VSHR, arithmetic (R372). -/
def execVshrArithmetic (q : R4) (t : VType) (z : Bool) (m : BitVec 3) (b a d : R4) (s : State) : Host.Outcome State Fault Refusal :=
  issue (.vshrArithmetic q t z m b a d) q s fun r x s => 
    vectorBits s r x t z m d fun j => shiftLane (VType.width t) false true (x.vlane t a j) (x.vlane t b j)

/-- VCMP (R374). -/
def execVcmp (q : R4) (t : VType) (c : Cond) (b a : R4) (md : BitVec 3) (s : State) : Host.Outcome State Fault Refusal :=
  issue (.vcmp q t c b a md) q s fun r x s => 
    vectorCmp s r t md fun j =>
      if t.isFloat then fCmp c (x.vval t a j) (x.vval t b j) else (condInt c (x.vint t a j) (x.vint t b j), 0)

/-- VCMP on unsigned lanes (R374). -/
def execVcmpN (q : R4) (t : VType) (c : Cond) (b a : R4) (md : BitVec 3) (s : State) : Host.Outcome State Fault Refusal :=
  issue (.vcmpN q t c b a md) q s fun r x s => 
    vectorCmp s r t md fun j => (condInt c (x.vlane t a j) (x.vlane t b j), 0)

/-- VSEL: va where the mask is on, vb where off (R383). -/
def execVsel (q : R4) (t : VType) (m : BitVec 3) (b a d : R4) (s : State) : Host.Outcome State Fault Refusal :=
  issue (.vsel q t m b a d) q s fun r x s => 
    vectorBits s r x t false 0 d fun j => if maskOn (x.getM m) (VType.width t) j then x.vlane t a j else x.vlane t b j

/-- VMOV (R373). -/
def execVmov (q : R4) (t : VType) (z : Bool) (m : BitVec 3) (a d : R4) (s : State) : Host.Outcome State Fault Refusal :=
  issue (.vmov q t z m a d) q s fun r x s => 
    vectorBits s r x t z m d fun j => x.vlane t a j

/-- VBCST: the low bits of a g register in every lane (R373). -/
def execVbcst (q : R4) (t : VType) (z : Bool) (m : BitVec 3) (a d : R4) (s : State) : Host.Outcome State Fault Refusal :=
  issue (.vbcst q t z m a d) q s fun r x s => 
    vectorBits s r x t z m d fun _ => (x.getG a).toNat % 2 ^ VType.width t

/-- VSHUF: lane vb[j] mod n of va (R384). -/
def execVshuf (q : R4) (t : VType) (z : Bool) (m : BitVec 3) (b a d : R4) (s : State) : Host.Outcome State Fault Refusal :=
  issue (.vshuf q t z m b a d) q s fun r x s => 
    vectorBits s r x t z m d fun j => x.vlane t a (x.vlane t b j % lanesOf t)

/-- VRED (R382). -/
def execVred (q : R4) (t : VType) (m : BitVec 3) (op : RedOp) (a d : R4) (s : State) : Host.Outcome State Fault Refusal :=
  issue (.vred q t m op a d) q s fun r x s => 
    let y := reduce x t m op a
    withFlags s r y.2 fun x => x.setG d (if t.isFloat then BitVec.ofNat 64 y.1 else BitVec.ofInt 64 (signedOf (VType.width t) y.1))

/-- VEXP2 (R376). A lane whose bounds leave the rounding undecided takes a free code (log 18). -/
def execVexp2 (q : R4) (t : VType) (z : Bool) (m : BitVec 3) (a d : R4) (s : State) : Host.Outcome State Fault Refusal :=
  issue (.vexp2 q t z m a d) q s fun r x s => 
    let y := fun j => fExp2 (vfmt t) x.rmode (x.vval t a j)
    let n := lanesOf t
    let open_ := (List.range n).any fun j => maskOn (x.getM m) (VType.width t) j && (y j).2.2
    vectorOp (if open_ then s.drawn n else s) r x (VType.width t) n z m d fun j =>
      if (y j).2.2 then (Config.freeNat (s.draws + j) % 2 ^ VType.width t, (y j).2.1) else ((y j).1, (y j).2.1)

/-- VRCP (R376). -/
def execVrcp (q : R4) (t : VType) (z : Bool) (m : BitVec 3) (a d : R4) (s : State) : Host.Outcome State Fault Refusal :=
  issue (.vrcp q t z m a d) q s fun r x s => 
    vectorOp s r x (VType.width t) (lanesOf t) z m d fun j => fRcp (vfmt t) x.rmode (x.vval t a j)

/-- VRSQ (R376). -/
def execVrsq (q : R4) (t : VType) (z : Bool) (m : BitVec 3) (a d : R4) (s : State) : Host.Outcome State Fault Refusal :=
  issue (.vrsq q t z m a d) q s fun r x s => 
    vectorOp s r x (VType.width t) (lanesOf t) z m d fun j => fRsq (vfmt t) x.rmode (x.vval t a j)

/-- VCVT (R375). -/
def execVcvt (q : R4) (t : VType) (z : Bool) (m : BitVec 3) (f : Fmt) (a d : R4) (s : State) : Host.Outcome State Fault Refusal :=
  issue (.vcvt q t z m f a d) q s fun r x s => 
    vectorCvt s r x (vsrc t) (VType.width t) z m f a d

/-- VCVT from unsigned lanes (R375). -/
def execVcvtN (q : R4) (t : VType) (z : Bool) (m : BitVec 3) (f : Fmt) (a d : R4) (s : State) : Host.Outcome State Fault Refusal :=
  issue (.vcvtN q t z m f a d) q s fun r x s => 
    vectorCvt s r x (vsrcN t) (VType.width t) z m f a d

end Sys2Proof.Machine
end

