-- ==== Sys2Proof/Machine/VectorMemory.lean ====
section
/-! DEFINITION. Vector loads and stores, gathers, scatters and shape slots (R56, R154, R362, R377-R379). -/
namespace Sys2Proof.Machine

/-- The 64-byte access of VLD and VST (R131, R378). -/
def lineWant (off : Dword) : List Want := [{ off := off, size := 64, al := 64, pos := 0 }]

/-- VLD (R378): off bytes of vd keep their values. -/
def execVld (q : R4) (disp : BitVec 5) (m : BitVec 3) (sg : BitVec 3) (a d : R4) (s : State) : Host.Outcome State Fault Refusal :=
  issue (.vld q disp m sg a d) q s fun r x s =>
    doLoad 1 r x s sg (lineWant (addr5 x a disp)) (.v d (x.getV d) (x.getM m)) 2 true

/-- VST (R378): off bytes are not written. -/
def execVst (q : R4) (disp : BitVec 5) (m : BitVec 3) (sg : BitVec 3) (a d : R4) (s : State) : Host.Outcome State Fault Refusal :=
  issue (.vst q disp m sg a d) q s fun r x s =>
    doStore 1 r x s sg (lineWant (addr5 x a disp)) (fun p => p.cut (x.getM m)) (leBytes 64 (x.getV d).toNat) 2 true

/-! VLDS and VSTS (R379). -/

/-- An element of a shaped run: its lane and its offset in the segment. -/
structure ShapedLane where
  j : Nat
  off : Dword
  /-- Whether its coordinates lie in the shape. -/
  inside : Bool

/-- On lanes of a shaped access. -/
def shapedLanes (x : Slot) (rec_ : BitVec 256) (m : BitVec 3) (a : R4) : List ShapedLane :=
  let e := shElem rec_
  let base := x.getG a
  let co := x.getG (a + 1)
  let i (k : Nat) : Nat := (co.extractLsb' (16 * k) 16).toNat
  ((List.range (64 / e)).filter fun j => (x.getM m).getLsbD (j * e)).map fun j =>
    { j := j
      off := base + BitVec.ofNat 64 ((i 0 + j) * e + i 1 * shStride rec_ 1 + i 2 * shStride rec_ 2 + i 3 * shStride rec_ 3)
      inside := i 0 + j < shDim rec_ 0 && i 1 < shDim' rec_ 1 && i 2 < shDim' rec_ 2 && i 3 < shDim' rec_ 3 }

/-- The first lane in another window than the first lane's (R379). -/
def crossLane (ls : List ShapedLane) : Option ShapedLane :=
  match ls with
  | [] => none
  | l :: t => t.find? fun k => k.off.toNat / 2 ^ 16 != l.off.toNat / 2 ^ 16

/-- The checks of R379 and the accesses of a shaped run, or TADDR of ELAL. -/
def shapedWants (x : Slot) (rec_ : Option (BitVec 256)) (m sg : BitVec 3) (a : R4) : List Want ⊕ Dword :=
  let base := x.getG a
  match rec_ with
  | none => .inr base
  | some rec_ =>
    if shPx rec_ || base.toNat % 2 ^ shAlign rec_ != 0 then .inr base
    else
      let ls := shapedLanes x rec_ m a
      match ls.find? fun l => !l.inside with
      | some l => .inr l.off
      | none =>
        match (if sg = 0 then crossLane ls else none) with
        | some l => .inr l.off
        | none =>
          let e := shElem rec_
          .inl (ls.map fun l => { off := l.off, size := e, al := 1, pos := l.j * e })

/-- Byte mask of the parts of an operand. -/
def wantMask (ws : List Want) : Dword := BitVec.ofNat 64 (ws.foldl (fun m w => m ||| ((2 ^ w.size - 1) <<< w.pos)) 0)

/-- VLDS (R379). -/
def execVlds (q : R4) (ts : BitVec 5) (m : BitVec 3) (sg : BitVec 3) (a d : R4) (s : State) : Host.Outcome State Fault Refusal :=
  issue (.vlds q ts m sg a d) q s fun r x s =>
    match shapedWants x (s.shapeFor r x ts) m sg a with
    | .inr t => trapOf cELAL t
    | .inl ws => doLoad 1 r x s sg ws (.v d (x.getV d) (wantMask ws)) 2 false

/-- VSTS (R379). -/
def execVsts (q : R4) (ts : BitVec 5) (m : BitVec 3) (sg : BitVec 3) (a d : R4) (s : State) : Host.Outcome State Fault Refusal :=
  issue (.vsts q ts m sg a d) q s fun r x s =>
    match shapedWants x (s.shapeFor r x ts) m sg a with
    | .inr t => trapOf cELAL t
    | .inl ws => doStore 1 r x s sg ws (fun p => [p]) (leBytes 64 (x.getV d).toNat) 2 false

/-! VGTH and VSCT (R377). -/

/-- On lanes and their exact local addresses. -/
def indexedLanes (x : Slot) (t : VType) (m : BitVec 3) (b a : R4) : List (Nat × Nat) :=
  let w := VType.width t
  ((List.range (lanesOf t)).filter fun j => maskOn (x.getM m) w j).map fun j => (j, (x.getG b).toNat + x.vlane t a j * (w / 8))

/-- The accesses of a gather or scatter, or TADDR of an address beyond the local window space. -/
def indexedWants (x : Slot) (t : VType) (m : BitVec 3) (b a : R4) : List Want ⊕ Dword :=
  let e := VType.width t / 8
  let ls := indexedLanes x t m b a
  match ls.find? fun l => 2 ^ 20 ≤ l.2 || (x.getG b).toNat % e != 0 with
  | some l => .inr (BitVec.ofNat 64 l.2)
  | none => .inl (ls.map fun l => { off := BitVec.ofNat 64 l.2, size := e, al := e, pos := l.1 * e })

/-- Accesses before the first lane that lies beyond the space are resolved first (R377). -/
def indexedBefore (x : Slot) (t : VType) (m : BitVec 3) (b a : R4) : List Want :=
  let e := VType.width t / 8
  ((indexedLanes x t m b a).takeWhile fun l => l.2 < 2 ^ 20 && (x.getG b).toNat % e == 0).map fun l =>
    { off := BitVec.ofNat 64 l.2, size := e, al := e, pos := l.1 * e }

/-- Byte mask of the on lanes. -/
def indexedMask (x : Slot) (t : VType) (m : BitVec 3) (b a : R4) : Dword :=
  let e := VType.width t / 8
  wantMask ((indexedLanes x t m b a).map fun l => { off := 0, size := e, al := e, pos := l.1 * e })

/-- A gather or scatter whose lanes run beyond the local window space: an earlier lane's trap or park decides (R377). -/
def indexedStop (r : SlotRef) (x : Slot) (s : State) (acc : Acc) (t : VType) (m : BitVec 3) (b a : R4) (dest : LoadDest) (taddr : Dword) : Res :=
  match s.places r 0 acc (indexedBefore x t m b a) with
  | .trap c u => trapOf c u
  | .denied u => if relaxedHere r x then .done (s.relaxedFault r x.at cSEGV u 0 dest) else trapOf cSEGV u
  | .park p => .park s p
  | .ok _ => trapOf cSEGV taddr

/-- VGTH (R377). -/
def execVgth (q : R4) (t : VType) (z : Bool) (m : BitVec 3) (b a d : R4) (s : State) : Host.Outcome State Fault Refusal :=
  issue (.vgth q t z m b a d) q s fun r x s =>
    match indexedWants x t m b a with
    | .inr u => indexedStop r x s .load t m b a (.v d (if z then 0 else x.getV d) (indexedMask x t m b a)) u
    | .inl ws => doLoad 1 r x s 0 ws (.v d (if z then 0 else x.getV d) (wantMask ws)) 2 true

/-- VSCT (R377): the higher of two lanes that name one element remains. -/
def execVsct (q : R4) (t : VType) (m : BitVec 3) (b a d : R4) (s : State) : Host.Outcome State Fault Refusal :=
  issue (.vsct q t m b a d) q s fun r x s =>
    match indexedWants x t m b a with
    | .inr u => indexedStop r x s .store t m b a .none u
    | .inl ws => doStore 1 r x s 0 ws (fun p => [p]) (leBytes 64 (x.getV d).toNat) 2 true (each := true)

/-! Shape slots (R154, R362). -/

/-- The 32-byte access of SHLD and SHST. -/
def shapeWant (off : Dword) : List Want := [{ off := off, size := 32, al := 32, pos := 0 }]

/-- SHLD (R154, R156, R362). -/
def execShld (q : R4) (ts : BitVec 5) (disp : Word) (sg : BitVec 3) (a : R4) (s : State) : Host.Outcome State Fault Refusal :=
  issue (.shld q ts disp sg a) q s fun r x s => doLoad 2 r x s sg (shapeWant (addr32 x a disp)) (.shape ts.toNat) 0 true

/-- SHST (R154, R362): an invalid slot writes zeros. -/
def execShst (q : R4) (ts : BitVec 5) (disp : Word) (sg : BitVec 3) (a : R4) (s : State) : Host.Outcome State Fault Refusal :=
  issue (.shst q ts disp sg a) q s fun r x s =>
    doStore 2 r x s sg (shapeWant (addr32 x a disp)) (fun p => [p])
      (leBytes 32 ((s.shapeFor r x ts).getD 0).toNat) 0 true

/-- SHEV (R154). -/
def execShev (q : R4) (ts : BitVec 5) (s : State) : Host.Outcome State Fault Refusal :=
  issue (.shev q ts) q s fun r _ s =>
    .done (s.setShape r.place ts.toNat none)

end Sys2Proof.Machine
end

