-- ==== Sys2Proof/Machine/Dispatch.lean ====
section
/-! DEFINITION. Dispatch: each instruction and each event of the part to its own meaning, one arm a constructor. -/
namespace Sys2Proof.Machine

def exec (i : Instr) (s : State) : Host.Outcome State Fault Refusal :=
  match i with
  | .pfx x1 x2 x3 => Sys2Proof.Machine.execPfx x1 x2 x3 s
  | .add x1 x2 x3 x4 x5 => Sys2Proof.Machine.execAdd x1 x2 x3 x4 x5 s
  | .sub x1 x2 x3 x4 x5 => Sys2Proof.Machine.execSub x1 x2 x3 x4 x5 s
  | .mul x1 x2 x3 x4 x5 => Sys2Proof.Machine.execMul x1 x2 x3 x4 x5 s
  | .mulh x1 x2 x3 x4 x5 x6 => Sys2Proof.Machine.execMulh x1 x2 x3 x4 x5 x6 s
  | .div x1 x2 x3 x4 x5 x6 => Sys2Proof.Machine.execDiv x1 x2 x3 x4 x5 x6 s
  | .rem x1 x2 x3 x4 x5 x6 => Sys2Proof.Machine.execRem x1 x2 x3 x4 x5 x6 s
  | .and x1 x2 x3 x4 => Sys2Proof.Machine.execAnd x1 x2 x3 x4 s
  | .or x1 x2 x3 x4 => Sys2Proof.Machine.execOr x1 x2 x3 x4 s
  | .xor x1 x2 x3 x4 => Sys2Proof.Machine.execXor x1 x2 x3 x4 s
  | .shl x1 x2 x3 x4 x5 => Sys2Proof.Machine.execShl x1 x2 x3 x4 x5 s
  | .shr x1 x2 x3 x4 x5 => Sys2Proof.Machine.execShr x1 x2 x3 x4 x5 s
  | .sha x1 x2 x3 x4 x5 => Sys2Proof.Machine.execSha x1 x2 x3 x4 x5 s
  | .rot x1 x2 x3 x4 x5 => Sys2Proof.Machine.execRot x1 x2 x3 x4 x5 s
  | .min x1 x2 x3 x4 x5 x6 => Sys2Proof.Machine.execMin x1 x2 x3 x4 x5 x6 s
  | .max x1 x2 x3 x4 x5 x6 => Sys2Proof.Machine.execMax x1 x2 x3 x4 x5 x6 s
  | .sel x1 x2 x3 x4 => Sys2Proof.Machine.execSel x1 x2 x3 x4 s
  | .clz x1 x2 x3 x4 => Sys2Proof.Machine.execClz x1 x2 x3 x4 s
  | .popc x1 x2 x3 x4 => Sys2Proof.Machine.execPopc x1 x2 x3 x4 s
  | .mad x1 x2 x3 x4 x5 => Sys2Proof.Machine.execMad x1 x2 x3 x4 x5 s
  | .mov x1 x2 x3 => Sys2Proof.Machine.execMov x1 x2 x3 s
  | .ext x1 x2 x3 x4 => Sys2Proof.Machine.execExt x1 x2 x3 x4 s
  | .ins x1 x2 x3 x4 => Sys2Proof.Machine.execIns x1 x2 x3 x4 s
  | .addi x1 x2 x3 x4 => Sys2Proof.Machine.execAddi x1 x2 x3 x4 s
  | .andi x1 x2 x3 x4 => Sys2Proof.Machine.execAndi x1 x2 x3 x4 s
  | .ori x1 x2 x3 x4 => Sys2Proof.Machine.execOri x1 x2 x3 x4 s
  | .xori x1 x2 x3 x4 => Sys2Proof.Machine.execXori x1 x2 x3 x4 s
  | .cmpi x1 x2 x3 x4 x5 => Sys2Proof.Machine.execCmpi x1 x2 x3 x4 x5 s
  | .cmp x1 x2 x3 x4 x5 x6 => Sys2Proof.Machine.execCmp x1 x2 x3 x4 x5 x6 s
  | .qand x1 x2 x3 x4 => Sys2Proof.Machine.execQand x1 x2 x3 x4 s
  | .qor x1 x2 x3 x4 => Sys2Proof.Machine.execQor x1 x2 x3 x4 s
  | .qxor x1 x2 x3 x4 => Sys2Proof.Machine.execQxor x1 x2 x3 x4 s
  | .qnot x1 x2 x3 => Sys2Proof.Machine.execQnot x1 x2 x3 s
  | .ldI8 x1 x2 x3 x4 x5 => Sys2Proof.Machine.execLdI8 x1 x2 x3 x4 x5 s
  | .ldI16 x1 x2 x3 x4 x5 => Sys2Proof.Machine.execLdI16 x1 x2 x3 x4 x5 s
  | .ldI32 x1 x2 x3 x4 x5 => Sys2Proof.Machine.execLdI32 x1 x2 x3 x4 x5 s
  | .ldI64 x1 x2 x3 x4 x5 => Sys2Proof.Machine.execLdI64 x1 x2 x3 x4 x5 s
  | .ldN8 x1 x2 x3 x4 x5 => Sys2Proof.Machine.execLdN8 x1 x2 x3 x4 x5 s
  | .ldN16 x1 x2 x3 x4 x5 => Sys2Proof.Machine.execLdN16 x1 x2 x3 x4 x5 s
  | .ldN32 x1 x2 x3 x4 x5 => Sys2Proof.Machine.execLdN32 x1 x2 x3 x4 x5 s
  | .ldLong x1 x2 x3 x4 x5 x6 => Sys2Proof.Machine.execLdLong x1 x2 x3 x4 x5 x6 s
  | .st x1 x2 x3 x4 x5 x6 => Sys2Proof.Machine.execSt x1 x2 x3 x4 x5 x6 s
  | .stLong x1 x2 x3 x4 x5 x6 => Sys2Proof.Machine.execStLong x1 x2 x3 x4 x5 x6 s
  | .lrw x1 x2 x3 x4 x5 => Sys2Proof.Machine.execLrw x1 x2 x3 x4 x5 s
  | .sch x1 x2 x3 x4 x5 => Sys2Proof.Machine.execSch x1 x2 x3 x4 x5 s
  | .rrel x1 x2 x3 x4 => Sys2Proof.Machine.execRrel x1 x2 x3 x4 s
  | .aadd x1 x2 x3 x4 x5 => Sys2Proof.Machine.execAadd x1 x2 x3 x4 x5 s
  | .aand x1 x2 x3 x4 x5 => Sys2Proof.Machine.execAand x1 x2 x3 x4 x5 s
  | .aor x1 x2 x3 x4 x5 => Sys2Proof.Machine.execAor x1 x2 x3 x4 x5 s
  | .axor x1 x2 x3 x4 x5 => Sys2Proof.Machine.execAxor x1 x2 x3 x4 x5 s
  | .amin x1 x2 x3 x4 x5 => Sys2Proof.Machine.execAmin x1 x2 x3 x4 x5 s
  | .amax x1 x2 x3 x4 x5 => Sys2Proof.Machine.execAmax x1 x2 x3 x4 x5 s
  | .axch x1 x2 x3 x4 x5 => Sys2Proof.Machine.execAxch x1 x2 x3 x4 x5 s
  | .acas x1 x2 x3 x4 x5 x6 x7 => Sys2Proof.Machine.execAcas x1 x2 x3 x4 x5 x6 x7 s
  | .br x1 x2 => Sys2Proof.Machine.execBr x1 x2 s
  | .call x1 x2 => Sys2Proof.Machine.execCall x1 x2 s
  | .jmpr x1 x2 => Sys2Proof.Machine.execJmpr x1 x2 s
  | .jmp x1 x2 => Sys2Proof.Machine.execJmp x1 x2 s
  | .ret x1 => Sys2Proof.Machine.execRet x1 s
  | .loop x1 x2 x3 => Sys2Proof.Machine.execLoop x1 x2 x3 s
  | .rpt x1 x2 x3 x4 => Sys2Proof.Machine.execRpt x1 x2 x3 x4 s
  | .nop x1 => Sys2Proof.Machine.execNop x1 s
  | .trap x1 x2 => Sys2Proof.Machine.execTrap x1 x2 s
  | .tret x1 => Sys2Proof.Machine.execTret x1 s
  | .yield x1 => Sys2Proof.Machine.execYield x1 s
  | .quit x1 => Sys2Proof.Machine.execQuit x1 s
  | .vote x1 x2 x3 x4 => Sys2Proof.Machine.execVote x1 x2 x3 x4 s
  | .getc x1 x2 x3 => Sys2Proof.Machine.execGetc x1 x2 x3 s
  | .setc x1 x2 x3 => Sys2Proof.Machine.execSetc x1 x2 x3 s
  | .sets x1 x2 x3 x4 => Sys2Proof.Machine.execSets x1 x2 x3 x4 s
  | .recv x1 x2 x3 => Sys2Proof.Machine.execRecv x1 x2 x3 s
  | .swait x1 x2 x3 => Sys2Proof.Machine.execSwait x1 x2 x3 s
  | .sadd x1 x2 x3 => Sys2Proof.Machine.execSadd x1 x2 x3 s
  | .sset x1 x2 x3 => Sys2Proof.Machine.execSset x1 x2 x3 s
  | .saddLong x1 x2 x3 x4 => Sys2Proof.Machine.execSaddLong x1 x2 x3 x4 s
  | .bara x1 x2 x3 => Sys2Proof.Machine.execBara x1 x2 x3 s
  | .barw x1 x2 x3 => Sys2Proof.Machine.execBarw x1 x2 x3 s
  | .fence x1 x2 => Sys2Proof.Machine.execFence x1 x2 s
  | .time x1 x2 => Sys2Proof.Machine.execTime x1 x2 s
  | .pop x1 x2 x3 => Sys2Proof.Machine.execPop x1 x2 x3 s
  | .push x1 x2 x3 => Sys2Proof.Machine.execPush x1 x2 x3 s
  | .atch x1 x2 x3 => Sys2Proof.Machine.execAtch x1 x2 x3 s
  | .dtch x1 x2 x3 => Sys2Proof.Machine.execDtch x1 x2 x3 s
  | .hovr x1 x2 x3 x4 x5 => Sys2Proof.Machine.execHovr x1 x2 x3 x4 x5 s
  | .hovrNotice x1 x2 x3 x4 x5 x6 => Sys2Proof.Machine.execHovrNotice x1 x2 x3 x4 x5 x6 s
  | .bqry x1 x2 x3 => Sys2Proof.Machine.execBqry x1 x2 x3 s
  | .wake x1 x2 => Sys2Proof.Machine.execWake x1 x2 s
  | .tlbi x1 x2 x3 => Sys2Proof.Machine.execTlbi x1 x2 x3 s
  | .disarm x1 x2 => Sys2Proof.Machine.execDisarm x1 x2 s
  | .fadd x1 x2 x3 x4 x5 => Sys2Proof.Machine.execFadd x1 x2 x3 x4 x5 s
  | .fsub x1 x2 x3 x4 x5 => Sys2Proof.Machine.execFsub x1 x2 x3 x4 x5 s
  | .fmul x1 x2 x3 x4 x5 => Sys2Proof.Machine.execFmul x1 x2 x3 x4 x5 s
  | .fdiv x1 x2 x3 x4 x5 => Sys2Proof.Machine.execFdiv x1 x2 x3 x4 x5 s
  | .fsqrt x1 x2 x3 x4 => Sys2Proof.Machine.execFsqrt x1 x2 x3 x4 s
  | .fmin x1 x2 x3 x4 x5 => Sys2Proof.Machine.execFmin x1 x2 x3 x4 x5 s
  | .fmax x1 x2 x3 x4 x5 => Sys2Proof.Machine.execFmax x1 x2 x3 x4 x5 s
  | .fma x1 x2 x3 x4 x5 => Sys2Proof.Machine.execFma x1 x2 x3 x4 x5 s
  | .fclass x1 x2 x3 x4 => Sys2Proof.Machine.execFclass x1 x2 x3 x4 s
  | .fcmp x1 x2 x3 x4 x5 x6 => Sys2Proof.Machine.execFcmp x1 x2 x3 x4 x5 x6 s
  | .cvt x1 x2 x3 x4 x5 => Sys2Proof.Machine.execCvt x1 x2 x3 x4 x5 s
  | .vadd x1 x2 x3 x4 x5 x6 x7 => Sys2Proof.Machine.execVadd x1 x2 x3 x4 x5 x6 x7 s
  | .vsub x1 x2 x3 x4 x5 x6 x7 => Sys2Proof.Machine.execVsub x1 x2 x3 x4 x5 x6 x7 s
  | .vmul x1 x2 x3 x4 x5 x6 x7 => Sys2Proof.Machine.execVmul x1 x2 x3 x4 x5 x6 x7 s
  | .vfma x1 x2 x3 x4 x5 x6 x7 => Sys2Proof.Machine.execVfma x1 x2 x3 x4 x5 x6 x7 s
  | .vmin x1 x2 x3 x4 x5 x6 x7 => Sys2Proof.Machine.execVmin x1 x2 x3 x4 x5 x6 x7 s
  | .vmax x1 x2 x3 x4 x5 x6 x7 => Sys2Proof.Machine.execVmax x1 x2 x3 x4 x5 x6 x7 s
  | .vminN x1 x2 x3 x4 x5 x6 x7 => Sys2Proof.Machine.execVminN x1 x2 x3 x4 x5 x6 x7 s
  | .vmaxN x1 x2 x3 x4 x5 x6 x7 => Sys2Proof.Machine.execVmaxN x1 x2 x3 x4 x5 x6 x7 s
  | .vand x1 x2 x3 x4 x5 x6 x7 => Sys2Proof.Machine.execVand x1 x2 x3 x4 x5 x6 x7 s
  | .vor x1 x2 x3 x4 x5 x6 x7 => Sys2Proof.Machine.execVor x1 x2 x3 x4 x5 x6 x7 s
  | .vxor x1 x2 x3 x4 x5 x6 x7 => Sys2Proof.Machine.execVxor x1 x2 x3 x4 x5 x6 x7 s
  | .vshl x1 x2 x3 x4 x5 x6 x7 => Sys2Proof.Machine.execVshl x1 x2 x3 x4 x5 x6 x7 s
  | .vshrLogical x1 x2 x3 x4 x5 x6 x7 => Sys2Proof.Machine.execVshrLogical x1 x2 x3 x4 x5 x6 x7 s
  | .vshrArithmetic x1 x2 x3 x4 x5 x6 x7 => Sys2Proof.Machine.execVshrArithmetic x1 x2 x3 x4 x5 x6 x7 s
  | .vcmp x1 x2 x3 x4 x5 x6 => Sys2Proof.Machine.execVcmp x1 x2 x3 x4 x5 x6 s
  | .vcmpN x1 x2 x3 x4 x5 x6 => Sys2Proof.Machine.execVcmpN x1 x2 x3 x4 x5 x6 s
  | .vsel x1 x2 x3 x4 x5 x6 => Sys2Proof.Machine.execVsel x1 x2 x3 x4 x5 x6 s
  | .vmov x1 x2 x3 x4 x5 x6 => Sys2Proof.Machine.execVmov x1 x2 x3 x4 x5 x6 s
  | .vbcst x1 x2 x3 x4 x5 x6 => Sys2Proof.Machine.execVbcst x1 x2 x3 x4 x5 x6 s
  | .vshuf x1 x2 x3 x4 x5 x6 x7 => Sys2Proof.Machine.execVshuf x1 x2 x3 x4 x5 x6 x7 s
  | .vred x1 x2 x3 x4 x5 x6 => Sys2Proof.Machine.execVred x1 x2 x3 x4 x5 x6 s
  | .vexp2 x1 x2 x3 x4 x5 x6 => Sys2Proof.Machine.execVexp2 x1 x2 x3 x4 x5 x6 s
  | .vrcp x1 x2 x3 x4 x5 x6 => Sys2Proof.Machine.execVrcp x1 x2 x3 x4 x5 x6 s
  | .vrsq x1 x2 x3 x4 x5 x6 => Sys2Proof.Machine.execVrsq x1 x2 x3 x4 x5 x6 s
  | .vcvt x1 x2 x3 x4 x5 x6 x7 => Sys2Proof.Machine.execVcvt x1 x2 x3 x4 x5 x6 x7 s
  | .vcvtN x1 x2 x3 x4 x5 x6 x7 => Sys2Proof.Machine.execVcvtN x1 x2 x3 x4 x5 x6 x7 s
  | .qscl x1 x2 x3 x4 x5 => Sys2Proof.Machine.execQscl x1 x2 x3 x4 x5 s
  | .qcvt x1 x2 x3 x4 x5 => Sys2Proof.Machine.execQcvt x1 x2 x3 x4 x5 s
  | .pxpk x1 x2 x3 => Sys2Proof.Machine.execPxpk x1 x2 x3 s
  | .pxun x1 x2 x3 => Sys2Proof.Machine.execPxun x1 x2 x3 s
  | .nput x1 x2 x3 => Sys2Proof.Machine.execNput x1 x2 x3 s
  | .nget x1 x2 x3 => Sys2Proof.Machine.execNget x1 x2 x3 s
  | .vld x1 x2 x3 x4 x5 x6 => Sys2Proof.Machine.execVld x1 x2 x3 x4 x5 x6 s
  | .vst x1 x2 x3 x4 x5 x6 => Sys2Proof.Machine.execVst x1 x2 x3 x4 x5 x6 s
  | .vlds x1 x2 x3 x4 x5 x6 => Sys2Proof.Machine.execVlds x1 x2 x3 x4 x5 x6 s
  | .vsts x1 x2 x3 x4 x5 x6 => Sys2Proof.Machine.execVsts x1 x2 x3 x4 x5 x6 s
  | .vgth x1 x2 x3 x4 x5 x6 x7 => Sys2Proof.Machine.execVgth x1 x2 x3 x4 x5 x6 x7 s
  | .vsct x1 x2 x3 x4 x5 x6 => Sys2Proof.Machine.execVsct x1 x2 x3 x4 x5 x6 s
  | .mzero x1 x2 => Sys2Proof.Machine.execMzero x1 x2 s
  | .msto x1 x2 x3 x4 x5 => Sys2Proof.Machine.execMsto x1 x2 x3 x4 x5 s
  | .mstoStream x1 x2 => Sys2Proof.Machine.execMstoStream x1 x2 s
  | .mlatch x1 x2 x3 x4 => Sys2Proof.Machine.execMlatch x1 x2 x3 x4 s
  | .mpass x1 x2 x3 => Sys2Proof.Machine.execMpass x1 x2 x3 s
  | .movi x1 x2 x3 => Sys2Proof.Machine.execMovi x1 x2 x3 s
  | .mmaLatch x1 x2 x3 x4 x5 x6 x7 x8 => Sys2Proof.Machine.execMmaLatch x1 x2 x3 x4 x5 x6 x7 x8 s
  | .mmaLocal x1 x2 x3 x4 x5 x6 x7 x8 => Sys2Proof.Machine.execMmaLocal x1 x2 x3 x4 x5 x6 x7 x8 s
  | .cpyg x1 x2 x3 x4 x5 x6 x7 x8 => Sys2Proof.Machine.execCpyg x1 x2 x3 x4 x5 x6 x7 x8 s
  | .cpyb x1 x2 x3 x4 x5 x6 x7 x8 => Sys2Proof.Machine.execCpyb x1 x2 x3 x4 x5 x6 x7 x8 s
  | .cpyx x1 x2 x3 x4 x5 x6 x7 => Sys2Proof.Machine.execCpyx x1 x2 x3 x4 x5 x6 x7 s
  | .putr x1 x2 x3 x4 x5 x6 x7 x8 => Sys2Proof.Machine.execPutr x1 x2 x3 x4 x5 x6 x7 x8 s
  | .getr x1 x2 x3 x4 x5 x6 x7 x8 => Sys2Proof.Machine.execGetr x1 x2 x3 x4 x5 x6 x7 x8 s
  | .shld x1 x2 x3 x4 x5 => Sys2Proof.Machine.execShld x1 x2 x3 x4 x5 s
  | .shst x1 x2 x3 x4 x5 => Sys2Proof.Machine.execShst x1 x2 x3 x4 x5 s
  | .shev x1 x2 => Sys2Proof.Machine.execShev x1 x2 s
  | .send x1 x2 x3 x4 x5 x6 x7 => Sys2Proof.Machine.execSend x1 x2 x3 x4 x5 x6 x7 s
  | .sendt x1 x2 x3 x4 x5 => Sys2Proof.Machine.execSendt x1 x2 x3 x4 x5 s
  | .spawn x1 x2 x3 x4 => Sys2Proof.Machine.execSpawn x1 x2 x3 x4 s
  | .arm x1 x2 x3 x4 x5 => Sys2Proof.Machine.execArm x1 x2 x3 x4 x5 s
  | .rcall x1 x2 x3 x4 x5 x6 => Sys2Proof.Machine.execRcall x1 x2 x3 x4 x5 x6 s
  | .rread x1 x2 x3 x4 x5 x6 => Sys2Proof.Machine.execRread x1 x2 x3 x4 x5 x6 s
  | .rwait x1 x2 x3 => Sys2Proof.Machine.execRwait x1 x2 x3 s
  | .rtrim x1 x2 => Sys2Proof.Machine.execRtrim x1 x2 s
  | .parkResume x1 => Sys2Proof.Machine.execParkResume x1 s
  | .revocationDetach x1 => Sys2Proof.Machine.execRevocationDetach x1 s
  | .windowSpill x1 => Sys2Proof.Machine.execWindowSpill x1 s
  | .windowFill x1 => Sys2Proof.Machine.execWindowFill x1 s
  | .barkerFetch x1 x2 x3 => Sys2Proof.Machine.execBarkerFetch x1 x2 x3 s
  | .streamWordArrival x1 x2 => Sys2Proof.Machine.execStreamWordArrival x1 x2 s
  | .voteResultArrival x1 x2 x3 => Sys2Proof.Machine.execVoteResultArrival x1 x2 x3 s
  | .latchEntryArrival x1 x2 x3 => Sys2Proof.Machine.execLatchEntryArrival x1 x2 x3 s
  | .spawnServe x1 => Sys2Proof.Machine.execSpawnServe x1 s
  | .stealRequest x1 x2 => Sys2Proof.Machine.execStealRequest x1 x2 s
  | .stealResponse x1 x2 x3 => Sys2Proof.Machine.execStealResponse x1 x2 x3 s
  | .claimArrival x1 x2 x3 x4 => Sys2Proof.Machine.execClaimArrival x1 x2 x3 x4 s
  | .dtchDrainEnd x1 => Sys2Proof.Machine.execDtchDrainEnd x1 s
  | .retentionEntryEnd x1 => Sys2Proof.Machine.execRetentionEntryEnd x1 s
  | .retentionExitEnd x1 => Sys2Proof.Machine.execRetentionExitEnd x1 s
  | .hovrSwap x1 => Sys2Proof.Machine.execHovrSwap x1 s
  | .bcmdAttach x1 x2 => Sys2Proof.Machine.execBcmdAttach x1 x2 s
  | .bcmdSetowner x1 x2 => Sys2Proof.Machine.execBcmdSetowner x1 x2 s
  | .bcmdUnrevoke x1 x2 => Sys2Proof.Machine.execBcmdUnrevoke x1 x2 s
  | .bcmdRefused x1 x2 => Sys2Proof.Machine.execBcmdRefused x1 x2 s
  | .setownerDone x1 => Sys2Proof.Machine.execSetownerDone x1 s
  | .cmapDeadSet x1 x2 x3 => Sys2Proof.Machine.execCmapDeadSet x1 x2 x3 s
  | .cmapstRefusedClear x1 => Sys2Proof.Machine.execCmapstRefusedClear x1 s
  | .tlbWalk x1 x2 x3 x4 => Sys2Proof.Machine.execTlbWalk x1 x2 x3 x4 s
  | .pfqvRead x1 => Sys2Proof.Machine.execPfqvRead x1 s
  | .tlbiDieAck x1 x2 => Sys2Proof.Machine.execTlbiDieAck x1 x2 s
  | .migrationGo x1 x2 => Sys2Proof.Machine.execMigrationGo x1 x2 s
  | .migrationEnd x1 => Sys2Proof.Machine.execMigrationEnd x1 s
  | .copyPacketLand x1 x2 => Sys2Proof.Machine.execCopyPacketLand x1 x2 s
  | .copyFault x1 x2 => Sys2Proof.Machine.execCopyFault x1 x2 s
  | .egressQueueDrain x1 x2 => Sys2Proof.Machine.execEgressQueueDrain x1 x2 s
  | .messageArrival x1 x2 x3 x4 x5 => Sys2Proof.Machine.execMessageArrival x1 x2 x3 x4 x5 s
  | .mailboxDivert x1 x2 => Sys2Proof.Machine.execMailboxDivert x1 x2 s
  | .arrivalLogMove x1 x2 => Sys2Proof.Machine.execArrivalLogMove x1 x2 s
  | .semaphoreArrival x1 x2 x3 => Sys2Proof.Machine.execSemaphoreArrival x1 x2 x3 s
  | .reservationGrant x1 => Sys2Proof.Machine.execReservationGrant x1 s
  | .reservationForceRelease x1 => Sys2Proof.Machine.execReservationForceRelease x1 s
  | .barrierArrival x1 x2 x3 x4 => Sys2Proof.Machine.execBarrierArrival x1 x2 x3 x4 s
  | .objectCreate x1 x2 => Sys2Proof.Machine.execObjectCreate x1 x2 s
  | .objectDestroy x1 => Sys2Proof.Machine.execObjectDestroy x1 s
  | .replayAppend x1 => Sys2Proof.Machine.execReplayAppend x1 s
  | .carouselApply x1 => Sys2Proof.Machine.execCarouselApply x1 s
  | .carouselRead x1 => Sys2Proof.Machine.execCarouselRead x1 s
  | .appliedPositionReport x1 x2 => Sys2Proof.Machine.execAppliedPositionReport x1 x2 s
  | .replicaResync x1 x2 => Sys2Proof.Machine.execReplicaResync x1 x2 s
  | .taggedMessage x1 => Sys2Proof.Machine.execTaggedMessage x1 s
  | .turnstileCountResume x1 => Sys2Proof.Machine.execTurnstileCountResume x1 s
  | .loadRectangle x1 => Sys2Proof.Machine.execLoadRectangle x1 s
  | .quantumExpiry x1 => Sys2Proof.Machine.execQuantumExpiry x1 s
  | .contextIdle x1 => Sys2Proof.Machine.execContextIdle x1 s
  | .preemption x1 x2 => Sys2Proof.Machine.execPreemption x1 x2 s
  | .restore x1 => Sys2Proof.Machine.execRestore x1 s
  | .turnstileRelease x1 => Sys2Proof.Machine.execTurnstileRelease x1 s
  | .mmaRun x1 => Sys2Proof.Machine.execMmaRun x1 s
  | .mlatchRun x1 => Sys2Proof.Machine.execMlatchRun x1 s
  | .mstoRun x1 => Sys2Proof.Machine.execMstoRun x1 s
  | .mzeroRun x1 => Sys2Proof.Machine.execMzeroRun x1 s
  | .latchPass x1 x2 x3 => Sys2Proof.Machine.execLatchPass x1 x2 x3 s
  | .packetHop x1 x2 => Sys2Proof.Machine.execPacketHop x1 x2 s
  | .timeRequest x1 => Sys2Proof.Machine.execTimeRequest x1 s
  | .requestTimeout x1 => Sys2Proof.Machine.execRequestTimeout x1 s
  | .bankMicrosecondSample => Sys2Proof.Machine.execBankMicrosecondSample s
  | .checkpointGo x1 => Sys2Proof.Machine.execCheckpointGo x1 s
  | .checkpointEnd x1 => Sys2Proof.Machine.execCheckpointEnd x1 s
  | .ccrunStart x1 x2 x3 => Sys2Proof.Machine.execCcrunStart x1 x2 x3 s
  | .ccrunStop x1 x2 x3 => Sys2Proof.Machine.execCcrunStop x1 x2 x3 s
  | .ccromRomoff => Sys2Proof.Machine.execCcromRomoff s
  | .dutyHostTimeout x1 => Sys2Proof.Machine.execDutyHostTimeout x1 s
  | .mmioRegisterWrite x1 x2 => Sys2Proof.Machine.execMmioRegisterWrite x1 x2 s
  | .notAnInstruction x1 x2 => Sys2Proof.Machine.execNotAnInstruction x1 x2 s
  | .streamImageEndMarker x1 => Sys2Proof.Machine.execStreamImageEndMarker x1 s
  | .streamerTrafficInjection x1 => Sys2Proof.Machine.execStreamerTrafficInjection x1 s
  | .accessReply x1 x2 => Sys2Proof.Machine.execAccessReply x1 x2 s
  | .accessRequestArrival x1 x2 => Sys2Proof.Machine.execAccessRequestArrival x1 x2 s
  | .tailFetch x1 => Sys2Proof.Machine.execTailFetch x1 s
  | .fabricLoadRequest x1 => Sys2Proof.Machine.execFabricLoadRequest x1 s
  | .fabricStore x1 => Sys2Proof.Machine.execFabricStore x1 s
  | .fabricAtomic x1 => Sys2Proof.Machine.execFabricAtomic x1 s
  | .fabricGetrRequest x1 => Sys2Proof.Machine.execFabricGetrRequest x1 s
  | .fabricPutrData x1 => Sys2Proof.Machine.execFabricPutrData x1 s
  | .fabricAck x1 => Sys2Proof.Machine.execFabricAck x1 s
  | .fabricRefusal x1 => Sys2Proof.Machine.execFabricRefusal x1 s
  | .fabricAtomicReply x1 => Sys2Proof.Machine.execFabricAtomicReply x1 s
  | .fabricLoadData x1 => Sys2Proof.Machine.execFabricLoadData x1 s
  | .fabricBadOp x1 x2 => Sys2Proof.Machine.execFabricBadOp x1 x2 s
  | .headerCrcError x1 => Sys2Proof.Machine.execHeaderCrcError x1 s
  | .powerOn x1 x2 => Sys2Proof.Machine.execPowerOn x1 x2 s
  | .coldReset => Sys2Proof.Machine.execColdReset s
  | .getVersion x1 => Sys2Proof.Machine.execGetVersion x1 s
  | .getCapabilities x1 => Sys2Proof.Machine.execGetCapabilities x1 s
  | .negotiateAlgorithms x1 => Sys2Proof.Machine.execNegotiateAlgorithms x1 s
  | .getDigests x1 => Sys2Proof.Machine.execGetDigests x1 s
  | .getCertificate x1 => Sys2Proof.Machine.execGetCertificate x1 s
  | .challenge x1 => Sys2Proof.Machine.execChallenge x1 s
  | .getMeasurements x1 => Sys2Proof.Machine.execGetMeasurements x1 s
  | .keyExchange x1 => Sys2Proof.Machine.execKeyExchange x1 s
  | .finish x1 => Sys2Proof.Machine.execFinish x1 s
  | .keyUpdate x1 => Sys2Proof.Machine.execKeyUpdate x1 s
  | .heartbeat x1 => Sys2Proof.Machine.execHeartbeat x1 s
  | .endSession x1 => Sys2Proof.Machine.execEndSession x1 s
  | .vendorDefinedRequest x1 x2 => Sys2Proof.Machine.execVendorDefinedRequest x1 x2 s
  | .frzAssert => Sys2Proof.Machine.execFrzAssert s
  | .thaw => Sys2Proof.Machine.execThaw s
  | .debugRead x1 => Sys2Proof.Machine.execDebugRead x1 s
  | .thermalReport x1 x2 => Sys2Proof.Machine.execThermalReport x1 x2 s
  | .thermalClockRestore => Sys2Proof.Machine.execThermalClockRestore s
  | .hostEventAck x1 x2 x3 x4 => Sys2Proof.Machine.execHostEventAck x1 x2 x3 x4 s
  | .hostWake x1 x2 x3 x4 x5 => Sys2Proof.Machine.execHostWake x1 x2 x3 x4 x5 s
  | .hostBcmd x1 x2 x3 x4 x5 => Sys2Proof.Machine.execHostBcmd x1 x2 x3 x4 x5 s
  | .hostRtrim x1 x2 x3 x4 x5 => Sys2Proof.Machine.execHostRtrim x1 x2 x3 x4 x5 s
  | .hostArm x1 x2 x3 x4 x5 x6 x7 x8 => Sys2Proof.Machine.execHostArm x1 x2 x3 x4 x5 x6 x7 x8 s
  | .hostDisarm x1 x2 x3 x4 x5 => Sys2Proof.Machine.execHostDisarm x1 x2 x3 x4 x5 s
  | .hostMigc x1 x2 x3 x4 x5 => Sys2Proof.Machine.execHostMigc x1 x2 x3 x4 x5 s
  | .hostCkpt x1 x2 x3 x4 x5 => Sys2Proof.Machine.execHostCkpt x1 x2 x3 x4 x5 s
  | .hostTlbi x1 x2 x3 x4 x5 x6 => Sys2Proof.Machine.execHostTlbi x1 x2 x3 x4 x5 x6 s
  | .hostPhysicalWrite x1 x2 x3 x4 x5 x6 => Sys2Proof.Machine.execHostPhysicalWrite x1 x2 x3 x4 x5 x6 s
  | .hostPhysicalRead x1 x2 x3 x4 x5 x6 => Sys2Proof.Machine.execHostPhysicalRead x1 x2 x3 x4 x5 x6 s
  | .portDown x1 => Sys2Proof.Machine.execPortDown x1 s
  | .portUp x1 x2 => Sys2Proof.Machine.execPortUp x1 x2 s
  | .linkResendRequest x1 x2 => Sys2Proof.Machine.execLinkResendRequest x1 x2 s
  | .powerRemoval => Sys2Proof.Machine.execPowerRemoval s
  | .newFirstStage x1 x2 => Sys2Proof.Machine.execNewFirstStage x1 x2 s

end Sys2Proof.Machine
end

