-- ==== Sys2Proof/Machine/Turn.lean ====
section
/-! DEFINITION. Whose turn it is (R23, R65, R69, R79, R84, R256, R284, R295; log 3): stimuli, events of units, and the issue
positions of the slots. -/
namespace Sys2Proof.Machine

/-! Stimuli. -/

/-- Stimuli that act on a part without power. -/
def wakesPower : Instr → Bool
  | .powerOn .. => true
  | _ => false

/-- Stimuli that act on a frozen part (R23, R284). -/
def actsFrozen : Instr → Bool
  | .thaw | .frzAssert | .debugRead .. | .powerRemoval => true
  | _ => false

/-- The first stimulus that may act, and the others. -/
def takeInput (may : Instr → Bool) : List Instr → Option (Instr × List Instr)
  | [] => none
  | e :: t =>
    if may e then some (e, t)
    else match takeInput may t with
      | some (f, u) => some (f, e :: u)
      | none => none

/-! Slots. -/

/-- The place of the next issue position in the same cycle: the next that has a slot in use, or background work. -/
def State.placeAfter (s : State) (p : Nat) : Option Nat :=
  let a := (s.slots.find? fun e => p < e.1 / 8).map fun e => e.1 / 8
  let b := (s.sites.find? fun e => p < e.1 && (e.2.w4 != [] || e.2.bg != [])).map Prod.fst
  match a, b with
  | some m, some n => some (Nat.min m n)
  | some m, none => some m
  | none, o => o

/-- The first place that has a slot in use, or background work. -/
def State.firstPlace (s : State) : Nat :=
  match s.slots, s.placeAfter 0 with
  | e :: _, some n => Nat.min (e.1 / 8) n
  | e :: _, none => e.1 / 8
  | [], some n => n
  | [], none => 0

/-- The next issue position (R65): slot k of the next place in the cycle, else slot k + 1 of the first in the next cycle. -/
def State.rotate (s : State) : State :=
  match s.placeAfter (placeKey s.cur.place) with
  | some p => { s with cur := { s.cur with place := placeOf p } }
  | none =>
    let s := { s with cur := { place := placeOf s.firstPlace, k := (s.cur.k + 1) % 8 } }
    if s.cur.k = 0 then ({ s with cycle := s.cycle + 1 } : State).revokeRound.stealRound else s

/-- What follows a step that went on. -/
def after (f : State → Host.Outcome State Fault Refusal) : Host.Outcome State Fault Refusal → Host.Outcome State Fault Refusal
  | .next s => f s
  | o => o

/-- The address of a streamed slot's word. -/
def State.atWord (s : State) (r : SlotRef) (pc : BitVec 16) : State :=
  if (s.slot r).streamed then s.modSlot r fun x => { x with pc := pc } else s

/-- Whether a slot stands where it may stop: a pending prefix's instruction still issues, a slot that holds a reservation goes on, and
so does a call that the sequencer or the carousel has answered (R208, R232, R256). -/
def Slot.mayStop (x : Slot) : Bool :=
  x.pre.isNone && !(match x.resv with | some v => v.held | none => false) && !(match x.stage with | .appended _ | .readDone .. => true | _ => false)

/-- Whether a slot is stopped at an instruction boundary for a pre-emption or by CCRUN (R208, R256, R289). In a core that is being
revoked only an atomic at the head of its queue goes on (R303). -/
def State.stopped (s : State) (r : SlotRef) : Bool :=
  let x := s.slot r
  match r.place with
  | .mesh c => (s.stopping c && x.mayStop) || ((s.site c).revoking.isSome && !x.atomicHead)
  | .ctl sock n => s.work.contains (.ccrunStop sock n r.k) && x.mayStop
  | .carousel _ => false

/-- Whether a slot issues at its position (R65): it is ready, not stopped, and its words find room in the east (R79). -/
def State.issuesAt (s : State) (r : SlotRef) : Bool :=
  (s.slot r).status == Status.ready && !s.stopped r && !s.stalled r

/-- The current slot issues what it fetches, once its far words, two at most, have been read. A fetch that parks is counted
then; an empty stream is not an issue. -/
def issueFrom (s : State) : Nat → Host.Outcome State Fault Refusal
  | 0 => .next s
  | more + 1 =>
    let r := s.cur
    match s.fetch r with
    | .ins i pc => exec i (s.atWord r pc)
    | .trap t pc => .next ((s.atWord r pc).takeTrap r t)
    | .park p => .next ((if p = .emptyStream then s else s.chargeIssue r).parkOn r p)
    | .far off p va => match s.readFar r off p va with
      | .got s => issueFrom s more
      | .trap t => .next (s.takeTrap r t)
      | .park s p => .next ((s.chargeIssue r).parkOn r p)

/-- The current slot issues; the far words of an instruction that has issued before are kept. -/
def issueNext (s : State) : Host.Outcome State Fault Refusal :=
  let x := s.slot s.cur
  issueFrom (if x.since = 0 ∧ x.far ≠ [] then s.setSlot s.cur { x with far := [] } else s) 3

/-- Background work at an idle position (R66): the oldest window spill or fill of the core, else the oldest copy of w4. -/
def turnIdle (p : Nat) (s : State) : Host.Outcome State Fault Refusal :=
  let y := s.site p
  match y.bg with
  | e :: rest => exec e (s.setSite p { y with bg := rest })
  | [] => if y.w4 = [] then .next s else exec (.streamerTrafficInjection p) s

/-- After its position a streamed slot's buffer takes words (R79). -/
def turnStream (r : SlotRef) (s : State) : Host.Outcome State Fault Refusal :=
  match r.place, (s.slot r).streamed with
  | .mesh c, true => exec (.streamWordArrival c r.k) s
  | _, _ => .next s

/-- The current slot's issue position (R65, R66). A ready slot that is stalled on a full eastern buffer or stopped for a
pre-emption leaves its position to it too (log 82). -/
def turnSlot (s : State) : Host.Outcome State Fault Refusal :=
  let r := s.cur
  after (fun s => after (fun s => .next s.rotate) (turnStream r s))
    (if s.issuesAt r then issueNext s else turnIdle (placeKey r.place) s)

/-- The slot of a key. -/
def slotOfKey (n : Nat) : SlotRef := { place := placeOf (n / 8), k := n % 8 }

/-- Whether a slot goes on with the instruction it is issuing (R69): its event has come, and no pre-emption stops it. -/
def State.due (s : State) (r : SlotRef) (x : Slot) : Bool :=
  !s.stopped r && match x.status with
    | .parked p => s.parkOver r p
    | .ready => x.since != 0
    | _ => false

/-- The slot that goes on first: of those due, the one that parked first. -/
def State.firstDue (s : State) : Option SlotRef :=
  (s.slots.foldl (fun b e =>
    let r := slotOfKey e.1
    if s.due r e.2 then match b with
      | some a => if (s.slot a).since ≤ e.2.since then b else some r
      | none => some r
    else b) (none : Option SlotRef))

/-- A slot whose event has come completes its instruction (R69). When it parks again the part's other work comes next. -/
def turnResume (r : SlotRef) (s : State) : Host.Outcome State Fault Refusal :=
  let cur := s.cur
  after (fun s =>
    if (s.slot r).status = Status.ready ∧ (s.slot r).since ≠ 0 then
      after (fun s => .next { s with cur := cur, resumes := (s.slot r).since == 0 }) (issueNext { s with cur := r })
    else .next s) (exec (.parkResume r) s)

/-- A stimulus acts, if one may; else what comes after. -/
def turnInput (may : Instr → Bool) (s : State) (after : Host.Outcome State Fault Refusal) : Host.Outcome State Fault Refusal :=
  match takeInput may s.inputs with
  | some (e, t) => exec e { s with inputs := t }
  | none => after

/-- Slots whose event has come go on first; events of units and issue positions take turns. -/
def turnPart (s : State) : Host.Outcome State Fault Refusal :=
  match (if s.resumes then s.firstDue else none), s.evTurn, s.work with
  | some r, _, _ => turnResume r s
  | none, true, e :: t => exec e { s with work := t, evTurn := false, resumes := true }
  | none, _, _ => turnSlot { s with evTurn := true, resumes := true }

/-! Placing an instruction (log 8). -/

/-- Where a slot can fetch an instruction of two words. -/
def fetchPlace (x : Slot) : BitVec 16 := if x.pc.extractLsb' 0 2 ≠ 0 ∨ x.pc = 0xFFFC then 0 else x.pc

/-- A slot that fetches next at an address, from its core store or its stream buffer. -/
def fetchingSlot (x : Slot) (w0 w1 : Word) : Slot :=
  let pc := fetchPlace x
  { x with
    status := .ready, pc := pc, pre := none, rpt := none, cfs := 0, far := [], stage := .fresh, since := 0, out := []
    buf := if x.streamed then [{ off := pc, w := w0 }, { off := pc + 4, w := w1 }] else x.buf }

/-- The eastern neighbour of a streamed slot has room for its words. -/
def State.roomEast (s : State) (r : SlotRef) : State :=
  match r.place with
  | .mesh c => if eastEdge (s.slot r).rect c then s else s.modSlot (meshSlot (c + 1) r.k) fun y => { y with buf := y.buf.take 13 }
  | _ => s

/-- The words of an instruction where the current slot fetches next; nothing else is to act first. -/
def State.placeWords (s : State) (w0 w1 : Word) : State :=
  let r := s.cur
  let x := s.slot r
  let s := s.setSlot r (fetchingSlot x w0 w1)
  let s := if x.streamed then s.roomEast r
    else s.setBytes (storeKey (placeKey r.place) (fetchPlace x).toNat) (bytesOfWord w0 ++ bytesOfWord w1)
  { s with
    power := true, inputs := [], work := [], evTurn := false, resumes := false, iod := { s.iod with romOff := true, frozen := false }
    turnstiles := s.turnstiles.map fun e => (e.1, { e.2 with ctx := e.2.ctx.map fun c => { c with stopping := none } }) }

end Sys2Proof.Machine
end

