-- ==== Sys2Proof/Machine/Step.lean ====
section
/-! DEFINITION. One step of the part (log 3): a stimulus from outside when there is one that may act, else an event a unit
posted or an issue of the current slot, in turn. -/
namespace Sys2Proof.Machine

/-- One step. -/
def step (s : State) : Host.Outcome State Fault Refusal :=
  if !s.power then turnInput wakesPower s (.fault .noPower)
  else if s.iod.frozen then turnInput actsFrozen s (.next s)
  else turnInput s.inputMay s (turnPart s)

/-- The machine with an instruction where the current slot fetches next (log 8): the slot is ready and unstopped, its
fetch source is the core store it can be written to, or its stream buffer. -/
def State.withFetchWord (s : State) (nbits w : Nat) : State :=
  s.placeWords (BitVec.ofNat 32 (w % 2 ^ nbits)) (BitVec.ofNat 32 (w % 2 ^ nbits / 2 ^ 32))

end Sys2Proof.Machine
end

