-- ==== Sys2Proof/Safety.lean ====
section
/-! DEFINITION. What counts as a safe run, in the terms statements use: the memory keeps its canonical form, a step goes on,
an instruction reaches its own effect, and what it leaves unchanged. -/
namespace Sys2Proof.Machine

/-- Memory keeps its canonical form. -/
def State.memOk (s : State) : Prop := Memory.wf s.mem = true

/-- The step answers a next state. -/
def State.goesOn (s : State) : Prop := ∃ t, step s = .next t

/-- Instruction i, guarded by q, reaches its own effect in the current slot: it is no word of a frame that is being captured
(R62), no prefix misfits it and no method budget is spent (R41, R220), its guard is true or is its operand (R40), its place
may run it (R136, R219, R287), a synchronisation point finds its slot drained and without a pending fault (R214, R261), and
no relaxed load is to write a register it names (R237). -/
def State.issues (s : State) (i : Instr) (q : R4) : Bool :=
  let x := s.slot s.cur
  x.capturing.isNone && (earlyTrap x i).isNone && (x.getQ q || readsGuard x i) && (placeTrap s.cur i).isNone &&
  (!isSync i || (x.drained 0 && x.faults.isEmpty)) && !(x.relaxed.any fun a => a.blocks (gUse i) (vUse i))

/-- The state in which an instruction's own effect begins: the issue is charged and a method's budget counted (R220, R282). -/
def State.begun (s : State) : State :=
  let s := s.chargeIssue s.cur
  s.setSlot s.cur (s.slot s.cur).spend

/-- The current slot as its instruction's own effect finds it. -/
def State.now (s : State) : Slot := s.begun.slot s.cur

/-- A slot gone on past an instruction of the current slot (R64). -/
def State.past (s : State) (i : Instr) (x : Slot) : Slot := x.retire (x.onEast s.cur.place) (wordsOf i)

/-- Nothing changed but the current slot, which is now y, and the issue count of its account: every other slot, every byte
of memory and every other piece of state is as it was. -/
def State.onlySlot (s t : State) (y : Slot) : Prop :=
  t.slot s.cur = y ∧ (∀ r, slotKey r ≠ slotKey s.cur → t.slot r = s.slot r) ∧ (∀ k, t.byte k = s.byte k) ∧
  t = { s with slots := t.slots, iod := s.begun.iod }

end Sys2Proof.Machine
end

