-- ==== Sys2Proof/Certificates/Slice0/Obligations.lean ====
section
/-! DEFINITION. The statements for the provers, and the terms they are written in. -/
namespace Sys2Proof.Claims
open Sys2Proof.Machine

/-! What instructions write, from the rules; x is the current slot as the instruction's effect finds it. -/

/-- Guard, destination, w32 and exact result of the integer instructions that SAT clamps (R306, R307, R336, R340, R365). -/
def exactResult (x : Slot) : Instr → Option (R4 × R4 × Bool × Int)
  | .add q w b a d => some (q, d, w, lowS w (x.getG a) + lowS w (x.getG b))
  | .sub q w b a d => some (q, d, w, lowS w (x.getG a) - lowS w (x.getG b))
  | .mul q w b a d => some (q, d, w, lowS w (x.getG a) * lowS w (x.getG b))
  | .mad q w b a d => some (q, d, w, lowS w (x.getG a) * lowS w (x.getG b) + lowS w (x.getG d))
  | .addi q imm a d => some (q, d, false, (x.getG a).toInt + imm.toInt)
  | _ => none

/-- The slot after such a result: wrapped to n bits; under SAT clamped to the signed n-bit range, FLAGS.SAT set when the
clamp changed it. -/
def withExact (x : Slot) (d : R4) (w : Bool) (v : Int) : Slot :=
  let n := if w then 32 else 64
  let hi : Int := 2 ^ (n - 1) - 1
  let lo : Int := -2 ^ (n - 1)
  let out (v : Int) : Dword := if w then (BitVec.ofInt 32 v).signExtend 64 else BitVec.ofInt 64 v
  if x.sat = false then x.setG d (out v)
  else if v < lo then (x.raise fSAT).setG d (out lo)
  else if hi < v then (x.raise fSAT).setG d (out hi)
  else x.setG d (out v)

/-- The low 32 bits of a register, the operand of a w32 form. -/
def low (x : Slot) (a : R4) : Word := (x.getG a).extractLsb' 0 32

/-- Guard, destination and result of shifts, rotations, bounds, counts and high products (R314, R337, R340, R345, R353, R361). -/
def bitResult (x : Slot) : Instr → Option (R4 × R4 × Dword)
  | .mulh q false false b a d => some (q, d, BitVec.ofInt 64 ((x.getG a).toInt * (x.getG b).toInt / 2 ^ 64))
  | .mulh q true false b a d => some (q, d, BitVec.ofNat 64 ((x.getG a).toNat * (x.getG b).toNat / 2 ^ 64))
  | .shl q false b a d => some (q, d, if (x.getG b).toNat < 64 then x.getG a <<< (x.getG b).toNat else 0)
  | .shr q false b a d => some (q, d, if (x.getG b).toNat < 64 then x.getG a >>> (x.getG b).toNat else 0)
  | .sha q false b a d => some (q, d, (x.getG a).sshiftRight (Nat.min (x.getG b).toNat 64))
  | .rot q false b a d => some (q, d, (x.getG a).rotateLeft ((x.getG b).toNat % 64))
  | .rot q true b a d => some (q, d, ((low x a).rotateLeft ((x.getG b).toNat % 32)).signExtend 64)
  | .min q false false b a d => some (q, d, if (x.getG b).toInt < (x.getG a).toInt then x.getG b else x.getG a)
  | .min q true false b a d => some (q, d, if (x.getG b).toNat < (x.getG a).toNat then x.getG b else x.getG a)
  | .max q false false b a d => some (q, d, if (x.getG a).toInt < (x.getG b).toInt then x.getG b else x.getG a)
  | .max q true false b a d => some (q, d, if (x.getG a).toNat < (x.getG b).toNat then x.getG b else x.getG a)
  | .mulh q false true b a d => some (q, d, (BitVec.ofInt 32 ((low x a).toInt * (low x b).toInt / 2 ^ 32)).signExtend 64)
  | .mulh q true true b a d => some (q, d, (BitVec.ofNat 32 ((low x a).toNat * (low x b).toNat / 2 ^ 32)).signExtend 64)
  | .shl q true b a d => some (q, d, if (x.getG b).toNat < 32 then (low x a <<< (x.getG b).toNat).signExtend 64 else 0)
  | .shr q true b a d => some (q, d, if (x.getG b).toNat < 32 then (low x a >>> (x.getG b).toNat).signExtend 64 else 0)
  | .sha q true b a d => some (q, d, ((low x a).sshiftRight (Nat.min (x.getG b).toNat 32)).signExtend 64)
  | .min q false true b a d => some (q, d, (if (low x b).toInt < (low x a).toInt then low x b else low x a).signExtend 64)
  | .min q true true b a d => some (q, d, (if (low x b).toNat < (low x a).toNat then low x b else low x a).signExtend 64)
  | .max q false true b a d => some (q, d, (if (low x a).toInt < (low x b).toInt then low x b else low x a).signExtend 64)
  | .max q true true b a d => some (q, d, (if (low x a).toNat < (low x b).toNat then low x b else low x a).signExtend 64)
  | .clz q w a d => some (q, d, BitVec.ofNat 64 (clzNat (aluBits w) (lowU w (x.getG a))))
  | .popc q w a d => some (q, d, BitVec.ofNat 64 (popNat (aluBits w) (lowU w (x.getG a))))
  | _ => none

/-- Guard, destination and result of logic and moves (R308, R309, R338, R343, R357, R386). -/
def moveResult (x : Slot) : Instr → Option (R4 × R4 × Dword)
  | .and q b a d => some (q, d, x.getG a &&& x.getG b)
  | .or q b a d => some (q, d, x.getG a ||| x.getG b)
  | .xor q b a d => some (q, d, x.getG a ^^^ x.getG b)
  | .andi q imm a d => some (q, d, x.getG a &&& imm.zeroExtend 64)
  | .ori q imm a d => some (q, d, x.getG a ||| imm.zeroExtend 64)
  | .xori q imm a d => some (q, d, x.getG a ^^^ imm.zeroExtend 64)
  | .mov q a d => some (q, d, x.getG a)
  | .movi q imm d => some (q, d, imm.signExtend 64)
  | .sel q b a d => some (q, d, if x.getQ q then x.getG a else x.getG b)
  | _ => none

/-- Guard, destination and result of EXT and INS on a legal control word, bit by bit (R323). -/
def fieldResult (x : Slot) : Instr → Option (R4 × R4 × (Nat → Bool))
  | .ext q b a d =>
    let c := x.getG b
    if fieldBad c then none
    else some (q, d, fun i =>
      if i < fieldWidth c then (x.getG a).getLsbD (fieldPos c + i)
      else c.getLsbD 16 && (x.getG a).getLsbD (fieldPos c + fieldWidth c - 1))
  | .ins q b a d =>
    let c := x.getG b
    if fieldBad c || c.getLsbD 16 then none
    else some (q, d, fun i =>
      if fieldPos c ≤ i && i < fieldPos c + fieldWidth c then (x.getG a).getLsbD (i - fieldPos c) else (x.getG d).getLsbD i)
  | _ => none

/-- Guard, destination predicate and its value of compares and predicate logic (R315, R316, R348). -/
def predicateResult (x : Slot) : Instr → Option (R4 × R4 × Bool)
  | .cmpi q c imm a p => some (q, p, condInt c (x.getG a).toInt imm.toInt)
  | .cmp q false c b a p => some (q, p, condInt c (x.getG a).toInt (x.getG b).toInt)
  | .cmp q true c b a p => some (q, p, condInt c (x.getG a).toNat (x.getG b).toNat)
  | .qand q b a d => some (q, d, x.getQ a && x.getQ b)
  | .qor q b a d => some (q, d, x.getQ a || x.getQ b)
  | .qxor q b a d => some (q, d, x.getQ a != x.getQ b)
  | .qnot q a d => some (q, d, !x.getQ a)
  | _ => none

/-- Guard, destination, code and flags of the scalar floating-point instructions that write a register (R161, R320, R324, R325). -/
def floatResult (x : Slot) : Instr → Option (R4 × R4 × Dword × BitVec 6)
  | .fadd q f b a d =>
    let v := fAdd (ftype f) x.rmode (fopVal x f a) (fopVal x f b)
    some (q, d, BitVec.ofNat 64 v.1, v.2)
  | .fsub q f b a d =>
    let v := fAdd (ftype f) x.rmode (fopVal x f a) (fopVal x f b).neg
    some (q, d, BitVec.ofNat 64 v.1, v.2)
  | .fmul q f b a d =>
    let v := fMul (ftype f) x.rmode (fopVal x f a) (fopVal x f b)
    some (q, d, BitVec.ofNat 64 v.1, v.2)
  | .fdiv q f b a d =>
    let v := fDiv (ftype f) x.rmode (fopVal x f a) (fopVal x f b)
    some (q, d, BitVec.ofNat 64 v.1, v.2)
  | .fsqrt q f a d =>
    let v := fSqrt (ftype f) x.rmode (fopVal x f a)
    some (q, d, BitVec.ofNat 64 v.1, v.2)
  | .fmin q f b a d =>
    let v := fMinMax (ftype f) false (fopCode x f a) (fopCode x f b)
    some (q, d, BitVec.ofNat 64 v.1, v.2)
  | .fmax q f b a d =>
    let v := fMinMax (ftype f) true (fopCode x f a) (fopCode x f b)
    some (q, d, BitVec.ofNat 64 v.1, v.2)
  | .fma q f b a d =>
    let v := fFma (ftype f) x.rmode (fopVal x f a) (fopVal x f b) (fopVal x f d)
    some (q, d, BitVec.ofNat 64 v.1, v.2)
  | .fclass q f a d => some (q, d, BitVec.ofNat 64 (fClass (ftype f) (fopCode x f a)), 0)
  | .cvt q src dst a d =>
    let v := convert dst src (valueIn src (x.getG a).toNat) x.rmode
    some (q, d, regOf dst v.1, v.2)
  | _ => none

end Sys2Proof.Claims

open Sys2Proof Sys2Proof.Machine

/-- ADD, SUB, MUL, MAD and ADDI write their exact result, wrapped or clamped under SAT; nothing else changes but FLAGS.SAT
and what going on past the instruction changes (R306, R307, R336, R340, R365; frame). g0 discards the result. -/
def Obligations.IntegerArithmetic : Prop :=
  ∀ (i : Instr) (s : State) (q d : R4) (w : Bool) (v : Int), Claims.exactResult s.now i = some (q, d, w, v) →
    s.issues i q = true → ∃ t, exec i s = .next t ∧ s.onlySlot t (s.past i (Claims.withExact s.now d w v))

/-- MULH, SHL, SHR, SHA, ROT, MIN, MAX, CLZ and POPC, and AND, OR, XOR, their immediate forms, MOV, MOVI and SEL, write their result and
nothing else. SEL reads its guard as a condition and always executes (R314, R337, R340, R345, R353, R357, R361; frame). -/
def Obligations.IntegerResults : Prop :=
  (∀ (i : Instr) (s : State) (q d : R4) (v : Dword), Claims.bitResult s.now i = some (q, d, v) →
     s.issues i q = true → ∃ t, exec i s = .next t ∧ s.onlySlot t (s.past i (s.now.setG d v))) ∧
  (∀ (i : Instr) (s : State) (q d : R4) (v : Dword), Claims.moveResult s.now i = some (q, d, v) →
     s.issues i q = true → ∃ t, exec i s = .next t ∧ s.onlySlot t (s.past i (s.now.setG d v)))

/-- EXT and INS on a legal control word write, bit by bit, the field of R323, and nothing else; on a control word that sets a reserved bit,
runs beyond bit 63 or, for INS, sets bit 16, they trap with ILL. -/
def Obligations.FieldResults : Prop :=
  (∀ (i : Instr) (s : State) (q d : R4) (f : Nat → Bool), Claims.fieldResult s.now i = some (q, d, f) →
     s.issues i q = true → ∃ t v, exec i s = .next t ∧ s.onlySlot t (s.past i (s.now.setG d v)) ∧
       ∀ k, k < 64 → v.getLsbD k = f k) ∧
  ((∀ (s : State) (q b a d : R4), s.issues (.ext q b a d) q = true → fieldBad (s.now.getG b) = true →
     exec (.ext q b a d) s = .next (s.begun.takeTrap s.cur { cause := cILL })) ∧
   (∀ (s : State) (q b a d : R4), s.issues (.ins q b a d) q = true →
     (fieldBad (s.now.getG b) = true ∨ (s.now.getG b).getLsbD 16 = true) →
     exec (.ins q b a d) s = .next (s.begun.takeTrap s.cur { cause := cILL })))

/-- DIV and REM: a quotient toward zero and the remainder of it, signed or unsigned; by zero the quotient is 0 and the
remainder the dividend when TEN.IDZ is clear, and IDZ is taken when it is set (R260, R322, R351). -/
def Obligations.Division : Prop :=
  ∀ (s : State) (q b a d : R4) (u w : Bool),
    let A := divOperand u w (s.now.getG a)
    let B := divOperand u w (s.now.getG b)
    (s.issues (.div q u w b a d) q = true →
      (B = 0 ∧ s.now.ten.getLsbD 5 = true ∧ exec (.div q u w b a d) s = .next (s.begun.takeTrap s.cur { cause := cIDZ })) ∨
      ((B = 0 → s.now.ten.getLsbD 5 = false) ∧ ∃ t, exec (.div q u w b a d) s = .next t ∧
        s.onlySlot t (s.past (.div q u w b a d) (s.now.setG d (wide w (if B = 0 then 0 else A.tdiv B)))))) ∧
    (s.issues (.rem q u w b a d) q = true →
      (B = 0 ∧ s.now.ten.getLsbD 5 = true ∧ exec (.rem q u w b a d) s = .next (s.begun.takeTrap s.cur { cause := cIDZ })) ∨
      ((B = 0 → s.now.ten.getLsbD 5 = false) ∧ ∃ t, exec (.rem q u w b a d) s = .next t ∧
        s.onlySlot t (s.past (.rem q u w b a d) (s.now.setG d (wide w (if B = 0 then A else A.tmod B))))))

/-- CMP, CMPI and the predicate logic write one predicate and nothing else; q0 discards it. -/
def Obligations.Predicates : Prop :=
  ∀ (i : Instr) (s : State) (q p : R4) (b : Bool), Claims.predicateResult s.now i = some (q, p, b) →
    s.issues i q = true → ∃ t, exec i s = .next t ∧ s.onlySlot t (s.past i (s.now.setQ p b))

/-- A scalar floating-point result whose flags are not enabled in TEN is written, its flags are recorded, and nothing else changes. FCMP writes
its predicate and records NV of a NaN likewise (R161-R163, R320, R324-R326). -/
def Obligations.FloatResults : Prop :=
  (∀ (i : Instr) (s : State) (q d : R4) (v : Dword) (fl : BitVec 6), Claims.floatResult s.now i = some (q, d, v, fl) →
     s.issues i q = true → s.now.enabled fl = 0 →
     ∃ t, exec i s = .next t ∧ s.onlySlot t (s.past i ((s.now.raise fl).setG d v))) ∧
  (∀ (s : State) (q b a p : R4) (f : FType) (c : Cond),
     let i : Instr := .fcmp q f c b a p
     let v := fCmp c (fopVal s.now f a) (fopVal s.now f b)
     s.issues i q = true → s.now.enabled v.2 = 0 →
     ∃ t, exec i s = .next t ∧ s.onlySlot t (s.past i ((s.now.raise v.2).setQ p v.1)))


namespace Sys2Proof.Claims
open Sys2Proof.Machine

/-- What a vector instruction writes: guard, destination, lane width, lanes, Z, the lanes that are on, the code and flags of
each lane that is on. -/
structure Lanes where
  q : R4
  d : R4
  w : Nat
  n : Nat
  z : Bool
  on : Nat → Bool
  f : Nat → Nat × BitVec 6

/-- An exact integer lane: modulo 2^w, or clamped to the signed range under SAT (R371). -/
def exactLane (x : Slot) (w : Nat) (v : Int) : Nat × BitVec 6 :=
  let hi : Int := 2 ^ (w - 1) - 1
  let lo : Int := -2 ^ (w - 1)
  let code (v : Int) : Nat := (v % 2 ^ w).toNat
  if x.sat = false then (code v, 0)
  else if v < lo then (code lo, fSAT)
  else if hi < v then (code hi, fSAT)
  else (code v, 0)

/-- All lanes of a type, on where the mask's bit is set. -/
def lanesAs (q d : R4) (t : VType) (z : Bool) (mk : Dword) (f : Nat → Nat × BitVec 6) : Lanes where
  q := q
  d := d
  w := VType.width t
  n := lanesOf t
  z := z
  on := maskOn mk (VType.width t)
  f := f

/-- Lanes of a conversion: as many as both types have, of the destination's width (R375). -/
def lanesCvt (q d : R4) (t : VType) (g : Fmt) (z : Bool) (mk : Dword) (f : Nat → Nat × BitVec 6) : Lanes where
  q := q
  d := d
  w := Fmt.width g
  n := 512 / Nat.max (VType.width t) (Fmt.width g)
  z := z
  on := maskOn mk (Fmt.width g)
  f := f

/-- Lanes of the vector instructions that write one v register under a mask (R370-R373, R375, R376, R380, R383, R384). -/
def laneResult (x : Slot) : Instr → Option Lanes
  | .vadd q t z m b a d => some (lanesAs q d t z (x.getM m) fun j =>
      if t.isFloat then fAdd (vfmt t) x.rmode (x.vval t a j) (x.vval t b j)
      else exactLane x (VType.width t) (x.vint t a j + x.vint t b j))
  | .vsub q t z m b a d => some (lanesAs q d t z (x.getM m) fun j =>
      if t.isFloat then fAdd (vfmt t) x.rmode (x.vval t a j) (x.vval t b j).neg
      else exactLane x (VType.width t) (x.vint t a j - x.vint t b j))
  | .vmul q t z m b a d => some (lanesAs q d t z (x.getM m) fun j =>
      if t.isFloat then fMul (vfmt t) x.rmode (x.vval t a j) (x.vval t b j)
      else exactLane x (VType.width t) (x.vint t a j * x.vint t b j))
  | .vfma q t z m b a d => some (lanesAs q d t z (x.getM m) fun j =>
      if t.isFloat then fFma (vfmt t) x.rmode (x.vval t a j) (x.vval t b j) (x.vval t d j)
      else exactLane x (VType.width t) (x.vint t a j * x.vint t b j + x.vint t d j))
  | .vmin q t z m b a d => some (lanesAs q d t z (x.getM m) fun j =>
      if t.isFloat then fMinMax (vfmt t) false (x.vlane t a j) (x.vlane t b j)
      else (if (x.vint t a j) < (x.vint t b j) then x.vlane t a j else x.vlane t b j, 0))
  | .vmax q t z m b a d => some (lanesAs q d t z (x.getM m) fun j =>
      if t.isFloat then fMinMax (vfmt t) true (x.vlane t a j) (x.vlane t b j)
      else (if (x.vint t a j) < (x.vint t b j) then x.vlane t b j else x.vlane t a j, 0))
  | .vminN q t z m b a d => some (lanesAs q d t z (x.getM m) fun j =>
      if t.isFloat then fMinMax (vfmt t) false (x.vlane t a j) (x.vlane t b j)
      else (Nat.min (x.vlane t a j) (x.vlane t b j), 0))
  | .vmaxN q t z m b a d => some (lanesAs q d t z (x.getM m) fun j =>
      if t.isFloat then fMinMax (vfmt t) true (x.vlane t a j) (x.vlane t b j)
      else (Nat.max (x.vlane t a j) (x.vlane t b j), 0))
  | .vand q t z m b a d => some (lanesAs q d t z (x.getM m) fun j => (x.vlane t a j &&& x.vlane t b j, 0))
  | .vor q t z m b a d => some (lanesAs q d t z (x.getM m) fun j => (x.vlane t a j ||| x.vlane t b j, 0))
  | .vxor q t z m b a d => some (lanesAs q d t z (x.getM m) fun j => (x.vlane t a j ^^^ x.vlane t b j, 0))
  | .vshl q t z m b a d => some (lanesAs q d t z (x.getM m) fun j =>
      (if x.vlane t b j < VType.width t then x.vlane t a j * 2 ^ x.vlane t b j % 2 ^ VType.width t else 0, 0))
  | .vshrLogical q t z m b a d => some (lanesAs q d t z (x.getM m) fun j =>
      (x.vlane t a j / 2 ^ x.vlane t b j, 0))
  | .vshrArithmetic q t z m b a d => some (lanesAs q d t z (x.getM m) fun j =>
      ((x.vint t a j / 2 ^ Nat.min (x.vlane t b j) (VType.width t) % 2 ^ VType.width t).toNat, 0))
  | .vmov q t z m a d => some (lanesAs q d t z (x.getM m) fun j => (x.vlane t a j, 0))
  | .vbcst q t z m a d => some (lanesAs q d t z (x.getM m) fun _ =>
      ((x.getG a).toNat % 2 ^ VType.width t, 0))
  | .vshuf q t z m b a d => some (lanesAs q d t z (x.getM m) fun j =>
      (x.vlane t a (x.vlane t b j % lanesOf t), 0))
  | .vsel q t m b a d => some (lanesAs q d t false (-1) fun j =>
      (if maskOn (x.getM m) (VType.width t) j then x.vlane t a j else x.vlane t b j, 0))
  | .vrcp q t z m a d => some (lanesAs q d t z (x.getM m) fun j =>
      fRcp (vfmt t) x.rmode (x.vval t a j))
  | .vrsq q t z m a d => some (lanesAs q d t z (x.getM m) fun j =>
      fRsq (vfmt t) x.rmode (x.vval t a j))
  | .vcvt q t z m f a d => some (lanesCvt q d t f z (x.getM m) fun j => convert f (vsrc t) (valueIn (vsrc t) (x.vlane t a j)) x.rmode)
  | .vcvtN q t z m f a d => some (lanesCvt q d t f z (x.getM m) fun j => convert f (vsrcN t) (valueIn (vsrcN t) (x.vlane t a j)) x.rmode)
  | _ => none

/-- Flags of the first n lanes that are on, ORed (R162). -/
def laneFlags (on : Nat → Bool) (f : Nat → Nat × BitVec 6) : Nat → BitVec 6
  | 0 => 0
  | n + 1 => laneFlags on f n ||| (if on n then (f n).2 else 0)

/-- Lanes of a register after a masked write (R370): lanes that are on, off lanes zero or as before, and zeros above lane n. -/
def Lanes.written (l : Lanes) (old v : Vec) : Prop :=
  (∀ j, j < l.n → lane v l.w j = if l.on j then (l.f j).1 % 2 ^ l.w else if l.z then 0 else lane old l.w j) ∧
  ∀ k, l.n * l.w ≤ k → v.getLsbD k = false

end Sys2Proof.Claims

/-- A scalar or vector floating-point result with a flag that is enabled in TEN raises FPX, with the flags that caused it in TINFO, those
raised and enabled (the model's reading, log 22); the flags are recorded and the destination is not written (R163). -/
def Obligations.FloatTraps : Prop :=
  (∀ (i : Instr) (s : State) (q d : R4) (v : Dword) (fl : BitVec 6), Claims.floatResult s.now i = some (q, d, v, fl) →
     s.issues i q = true → s.now.enabled fl ≠ 0 →
     exec i s = .next ((s.begun.setSlot s.cur (s.now.raise fl)).takeTrap s.cur (fpx (s.now.enabled fl)))) ∧
  (∀ (i : Instr) (s : State) (l : Claims.Lanes), Claims.laneResult s.now i = some l → s.issues i l.q = true →
     let fl := Claims.laneFlags l.on l.f l.n
     s.now.enabled fl ≠ 0 →
     exec i s = .next ((s.begun.setSlot s.cur (s.now.raise fl)).takeTrap s.cur (fpx (s.now.enabled fl))))

/-- A vector result whose flags are not enabled in TEN is written under its mask, its flags are recorded, and nothing else changes. So does
VEXP2, but a lane whose rounding the bounds on 2^x of the model leave undecided holds any code (the choice of log 18) (R162, R163,
R370-R373, R375, R376, R380, R383, R384; frame). -/
def Obligations.VectorResults : Prop :=
  (∀ (i : Instr) (s : State) (l : Claims.Lanes), Claims.laneResult s.now i = some l → s.issues i l.q = true →
     s.now.enabled (Claims.laneFlags l.on l.f l.n) = 0 →
     ∃ t v, exec i s = .next t ∧ s.onlySlot t (s.past i ((s.now.raise (Claims.laneFlags l.on l.f l.n)).setV l.d v)) ∧
       l.written (s.now.getV l.d) v) ∧
  (∀ (s : State) (q : R4) (t : VType) (z : Bool) (m : BitVec 3) (a d : R4),
     let i : Instr := .vexp2 q t z m a d
     let w := VType.width t
     let on := maskOn (s.now.getM m) w
     let f := fun j => fExp2 (vfmt t) s.now.rmode (s.now.vval t a j)
     let fl := Claims.laneFlags on (fun j => (0, (f j).2.1)) (lanesOf t)
     s.issues i q = true → s.now.enabled fl = 0 →
     ∃ u v n, exec i s = .next u ∧ u.slot s.cur = s.past i ((s.now.raise fl).setV d v) ∧
       (∀ r, slotKey r ≠ slotKey s.cur → u.slot r = s.slot r) ∧
       u = { s with slots := u.slots, iod := s.begun.iod, draws := s.draws + n } ∧
       ∀ j, j < lanesOf t → on j = false ∨ (f j).2.2 = false →
         lane v w j = if on j then (f j).1 % 2 ^ w else if z then 0 else lane (s.now.getV d) w j)

/-- VCMP writes one mask: w / 8 equal bits for each lane; NV of NaN lanes is recorded, or raises FPX when enabled, and then
no mask is written (R163, R374). VRED writes one g register, or raises FPX likewise (R382). FPX holds the raised and enabled flags (the
model's reading, log 22). -/
def Obligations.VectorCompareAndReduce : Prop :=
  (∀ (s : State) (i : Instr) (q b a : R4) (t : VType) (c : Cond) (md : BitVec 3) (u : Bool),
    i = (if u then .vcmpN q t c b a md else .vcmp q t c b a md) →
    let x := s.now
    let f := fun j => if u then (condInt c (x.vlane t a j) (x.vlane t b j), (0 : BitVec 6))
      else if t.isFloat then fCmp c (x.vval t a j) (x.vval t b j) else (condInt c (x.vint t a j) (x.vint t b j), 0)
    let fl := Claims.laneFlags (fun _ => true) (fun j => (0, (f j).2)) (lanesOf t)
    s.issues i q = true →
    if s.now.enabled fl = 0 then ∃ t' v, exec i s = .next t' ∧ s.onlySlot t' (s.past i ((x.raise fl).setM md v)) ∧
      ∀ k, k < 64 → v.getLsbD k = (f (k / (VType.width t / 8))).1
    else exec i s = .next ((s.begun.setSlot s.cur (x.raise fl)).takeTrap s.cur (fpx (x.enabled fl)))) ∧
  ∀ (s : State) (q a d : R4) (t : VType) (m : BitVec 3) (op : RedOp),
    let i : Instr := .vred q t m op a d
    let x := s.now
    let y := reduce x t m op a
    s.issues i q = true →
    if x.enabled y.2 = 0 then ∃ t', exec i s = .next t' ∧
      s.onlySlot t' (s.past i ((x.raise y.2).setG d
        (if t.isFloat then BitVec.ofNat 64 y.1 else BitVec.ofInt 64 (signedOf (VType.width t) y.1))))
    else exec i s = .next ((s.begun.setSlot s.cur (x.raise y.2)).takeTrap s.cur (fpx (x.enabled y.2)))

/-- QSCL, QCVT, PXPK and PXUN write one v register and nothing else: the block's scale in byte 32, 32 codes in bytes 0-31, a
px8 block, or its 32 codes and scale (R173-R178). QCVT and PXUN raise FPX with the raised and enabled flags (the model's reading, log 22). -/
def Obligations.BlockCodes : Prop :=
  (∀ (s : State) (q a d : R4) (t : VType) (f : Fmt),
    let i : Instr := .qscl q t f a d
    let x := s.now
    s.issues i q = true →
    if oddPair t a then exec i s = .next (s.begun.takeTrap s.cur { cause := cILL })
    else ∃ t' v, exec i s = .next t' ∧ s.onlySlot t' (s.past i (x.setV d v)) ∧
      ∀ k, k < 64 → lane v 8 k =
        if k = 32 then scaleCode (fmaxExp f) (blockElems x t a) % 256 else lane (x.getV d) 8 k) ∧
  (∀ (s : State) (q a d : R4) (t : VType) (f : Fmt),
    let i : Instr := .qcvt q t f a d
    let x := s.now
    let c := lane (x.getV d) 8 32
    let e (k : Nat) : Nat × BitVec 6 := if c = 0xFF then (0x7F, 0)
      else convert f (vsrc t) ((((blockElems x t a)[k]?).getD (.nan false)).scale (127 - (c : Int))) x.rmode
    let fl := Claims.laneFlags (fun _ => true) e 32
    s.issues i q = true →
    if oddPair t a then exec i s = .next (s.begun.takeTrap s.cur { cause := cILL })
    else if x.enabled fl = 0 then ∃ t' v, exec i s = .next t' ∧ s.onlySlot t' (s.past i ((x.raise fl).setV d v)) ∧
      ∀ k, k < 64 → lane v 8 k = if k < 32 then (e k).1 % 256 else lane (x.getV d) 8 k
    else exec i s = .next ((s.begun.setSlot s.cur (x.raise fl)).takeTrap s.cur (fpx (x.enabled fl)))) ∧
  (∀ (s : State) (q a d : R4),
    let i : Instr := .pxpk q a d
    let x := s.now
    s.issues i q = true → ∃ t' v, exec i s = .next t' ∧ s.onlySlot t' (s.past i (x.setV d v)) ∧
      ∀ k, k < 64 → lane v 8 k =
        ((pxEncode ((List.range 32).map (lane (x.getV a) 8)) (lane (x.getV a) 8 32))[k]?).getD 0 % 256) ∧
  ∀ (s : State) (q a d : R4),
    let i : Instr := .pxun q a d
    let x := s.now
    let bytes := (List.range 64).map (lane (x.getV a) 8)
    let bad := 32 < pxLenOf bytes ∨ pxDecode bytes = none
    let fl : BitVec 6 := if bad then fNV else 0
    s.issues i q = true →
    if x.enabled fl = 0 then ∃ t' v, exec i s = .next t' ∧ s.onlySlot t' (s.past i ((x.raise fl).setV d v)) ∧
      ∀ k, k < 64 → lane v 8 k = (if bad then (if k < 32 then 0x7F else if k = 32 then 0xFF else 0)
        else match pxDecode bytes with
          | some y => if k < 32 then (y.1[k]?).getD 0 % 256 else if k = 32 then y.2 % 256 else 0
          | none => 0)
    else exec i s = .next ((s.begun.setSlot s.cur (x.raise fl)).takeTrap s.cur (fpx (x.enabled fl)))


namespace Sys2Proof.Claims
open Sys2Proof.Machine

/-- A state after an instruction of the current slot that made it E and goes on (R64). -/
def goOn (s : State) (i : Instr) (E : State) : State := E.setSlot s.cur (s.past i (E.slot s.cur))

/-- The slot of a local-mode control word that goes on at pc: what its issue had pending ends (R64). -/
def at_ (x : Slot) (pc : BitVec 16) : Slot := { x with pc := pc, pre := none, since := 0, stage := .fresh }

/-- Guard, words, whether it is taken, its target and the slot with its register effects, for the control words that have no
window effect (R312, R331, R332, R334). -/
def jumpResult (x : Slot) : Instr → Option (R4 × Nat × Bool × BitVec 16 × Slot)
  | .br q disp => some (q, 1, x.getQ q, (x.pc.zeroExtend 32 + 4 * disp.signExtend 32).extractLsb' 0 16, x)
  | .jmp q disp => some (q, 2, x.getQ q, (x.pc.zeroExtend 32 + 4 * disp).extractLsb' 0 16, x)
  | .jmpr q a => some (q, 1, x.getQ q, (x.getG a).extractLsb' 0 16, x)
  | .loop q disp c =>
    let y := x.setG c (x.getG c - 1)
    some (q, 1, y.getG c != 0 && x.getQ q, (x.pc.zeroExtend 32 + 4 * disp.signExtend 32).extractLsb' 0 16, y)
  | _ => none

end Sys2Proof.Claims

/-- NPUT: with room in the neighbour's latch the entry is under way to it, or in it at once between streamed neighbours of a
row that do not wrap; with none the slot parks. NGET takes the oldest entry of its latch, and parks on an empty one. Both
raise ILL in a spawned slot (R85-R87, R341). -/
def Obligations.NeighbourLatches : Prop :=
  (∀ (s : State) (q a : R4) (dir : Dir) (c : Nat),
    let i : Instr := .nput q dir a
    let x := s.now
    let nb := ringNeighbour x.rect c dir
    let t := meshSlot nb s.cur.k
    let y := s.begun.slot t
    let o := opposite dir
    s.cur.place = .mesh c → s.issues i q = true →
    if x.spawned then exec i s = .next (s.begun.takeTrap s.cur { cause := cILL })
    else if 2 ≤ (y.inLatch o).length + (y.onWay o).length then exec i s = .next (s.begun.parkOn s.cur (.nput dir))
    else if x.streamed ∧ dir = .east ∧ coreCol c ≠ coreCol (rectHi x.rect) then
      exec i s = .next (Claims.goOn s i (s.begun.setSlot t (y.setLatch o (y.inLatch o ++ [x.getV a]))))
    else exec i s = .next (Claims.goOn s i
      ((s.begun.setSlot t (y.setComing o (y.onWay o ++ [x.getV a]))).post (.latchEntryArrival nb s.cur.k o)))) ∧
  (∀ (s : State) (q d : R4) (dir : Dir),
    let i : Instr := .nget q dir d
    let x := s.now
    s.issues i q = true →
    if x.spawned then exec i s = .next (s.begun.takeTrap s.cur { cause := cILL })
    else if x.inLatch dir = [] then exec i s = .next (s.begun.parkOn s.cur (.nget dir))
    else ∃ t v rest, x.inLatch dir = v :: rest ∧ exec i s = .next t ∧
      s.onlySlot t (s.past i ((x.setLatch dir rest).setV d v))) ∧
  ∀ (s : State) (core k : Nat) (dir : Dir) (v : Vec) (rest : List Vec),
    let x := s.slot (meshSlot core k)
    x.onWay dir = v :: rest →
    exec (.latchEntryArrival core k dir) s =
      .next (s.setSlot (meshSlot core k) ((x.setComing dir rest).setLatch dir (x.inLatch dir ++ [v])))

/-- BR, JMP, JMPR and LOOP in local mode go to their target, or on to the next word; LOOP decrements its counter either way. Nothing else
changes. A taken JMPR to a target that is no word address raises ILL. In streamed mode the lead decides by its own condition: its decision
goes east in the word, and its barker fetches on from where execution goes. A follower takes the decision in its word, and waits for a
word that has none; LOOP decrements its own counter (R81, R312, R331, R332, R334). -/
def Obligations.Jumps : Prop :=
  ((∀ (i : Instr) (s : State) (q : R4) (n : Nat) (taken : Bool) (target : BitVec 16) (y : Slot),
     Claims.jumpResult s.now i = some (q, n, taken, target, y) → s.issues i q = true → s.now.streamed = false →
     (∀ q' a, i = .jmpr q' a → taken = true → (s.now.getG a).toNat < 2 ^ 16 ∧ (s.now.getG a).toNat % 4 = 0) →
     ∃ t, exec i s = .next t ∧
       s.onlySlot t (Claims.at_ y (if taken then target else s.now.pc + BitVec.ofNat 16 (4 * n)))) ∧
   ∀ (s : State) (q a : R4), s.issues (.jmpr q a) q = true → s.now.streamed = false → s.now.getQ q = true →
     (2 ^ 16 ≤ (s.now.getG a).toNat ∨ (s.now.getG a).toNat % 4 ≠ 0) →
     exec (.jmpr q a) s = .next (s.begun.takeTrap s.cur { cause := cILL })) ∧
  ((∀ (i : Instr) (s : State) (q : R4) (n : Nat) (taken : Bool) (target : BitVec 16) (y : Slot),
     Claims.jumpResult s.now i = some (q, n, taken, target, y) → s.issues i q = true → leads s.now s.cur.place = true →
     (∀ q' a, i = .jmpr q' a → taken = true → (s.now.getG a).toNat < 2 ^ 16 ∧ (s.now.getG a).toNat % 4 = 0) →
     let dest := if taken then target else s.now.pc + BitVec.ofNat 16 (4 * n)
     exec i s = .next ((s.begun.setSlot s.cur
       (y.advance (y.onEast s.cur.place) n (some { taken := taken, target := dest }))).decide s.cur dest)) ∧
   ∀ (i : Instr) (s : State) (q : R4) (n : Nat) (taken : Bool) (target : BitVec 16) (y : Slot) (w : StreamWord) (rest : List StreamWord),
     Claims.jumpResult s.now i = some (q, n, taken, target, y) → s.issues i q = true → s.now.streamed = true →
     leads s.now s.cur.place = false → s.now.buf = w :: rest →
     if w.dec = none then exec i s = .next (s.begun.parkOn s.cur .emptyStream)
     else ∃ t, exec i s = .next t ∧ s.onlySlot t (y.advance (y.onEast s.cur.place) n none))

/-- CALL and RET in local mode, spills and fills (R75, R313, R352). A taken CALL with a free frame gives the callee a new window with the return
address in g15, keeps the caller's, and goes to its target; when that fills the frames, the oldest is to be spilled at an idle issue position of
the core (R66). With no free frame it parks for a spill, or raises STKO at WLIM; a method's stack holds eight frames (R219). A taken RET goes to g15 and gives the caller's window back; it raises ILL at depth 0 and for a bad target,
and parks for a fill. A spill stores the oldest caller's g8-g15 at WSP in the core store and moves WSP up; a fill moves it down and reads them
back, and a fill after a spill gives the frame that was spilled. -/
def Obligations.CallsAndWindows : Prop :=
  ((∀ (s : State) (q : R4) (disp : BitVec 19),
     let i : Instr := .call q disp
     let x := s.now
     let y : Slot := ((List.range 7).foldl (fun x n => x.setG (BitVec.ofNat 4 (8 + n)) 0) x).setG 15 ((x.pc + 4).zeroExtend 64)
     let y : Slot := { y with frames := x.window :: x.frames, depth := x.depth + 1 }
     let called := s.begun.setSlot s.cur y
     let blocked := if x.method.isSome then 8 ≤ x.spilled else x.wlim.toNat < x.wsp.toNat + 64
     s.issues i q = true → x.streamed = false →
     if x.getQ q = false then ∃ t, exec i s = .next t ∧ s.onlySlot t (Claims.at_ x (x.pc + 4))
     else if x.frames.length < 3 then
       exec i s = .next ((if x.frames.length = 2 ∧ ¬ blocked then called.background s.cur (.windowSpill s.cur) else called).setSlot s.cur
         (Claims.at_ y ((x.pc.zeroExtend 32 + 4 * disp.signExtend 32).extractLsb' 0 16)))
     else if blocked then exec i s = .next (s.begun.takeTrap s.cur { cause := cSTKO, taddr := x.wsp.zeroExtend 64 })
     else exec i s = .next ((s.begun.background s.cur (.windowSpill s.cur)).parkOn s.cur .callFrame)) ∧
   ∀ (s : State) (q : R4),
     let i : Instr := .ret q
     let x := s.now
     let back := (x.getG 15).extractLsb' 0 16
     s.issues i q = true → x.streamed = false → (x.method = none ∨ x.depth ≠ 1) →
     if x.getQ q = false then ∃ t, exec i s = .next t ∧ s.onlySlot t (Claims.at_ x (x.pc + 4))
     else if x.depth = 0 ∨ 2 ^ 16 ≤ (x.getG 15).toNat ∨ (x.getG 15).toNat % 4 ≠ 0 then
       exec i s = .next (s.begun.takeTrap s.cur { cause := cILL })
     else match x.frames with
       | f :: rest => ∃ t, exec i s = .next t ∧
           s.onlySlot t (Claims.at_ { (x.putWindow 8 f) with frames := rest, depth := x.depth - 1 } back)
       | [] => if x.spilled = 0 then ∃ t, exec i s = .next t ∧ s.onlySlot t (Claims.at_ { x with depth := x.depth - 1 } back)
         else exec i s = .next ((s.begun.background s.cur (.windowFill s.cur)).parkOn s.cur .retFrame)) ∧
  ((∀ (s : State) (r : SlotRef),
     let x := s.slot r
     x.frames.length = 3 → (if x.method.isSome then x.spilled < 8 else x.wsp.toNat + 64 ≤ x.wlim.toNat) →
     ∃ f, x.frames.getLast? = some f ∧ exec (.windowSpill r) s = .next
       ((s.setBytes (storeKey (placeKey r.place) x.wsp.toNat) (f.flatMap fun v => leBytes 8 v.toNat)).setSlot r
         { x with frames := x.frames.dropLast, spilled := x.spilled + 1, wsp := x.wsp + 64 })) ∧
   (∀ (s : State) (r : SlotRef),
     let x := s.slot r
     x.frames = [] → x.spilled ≠ 0 →
     ∃ f, f.length = 8 ∧ exec (.windowFill r) s = .next
       (s.setSlot r { x with frames := [f], spilled := x.spilled - 1, wsp := x.wsp - 64 }) ∧
       ∀ k, k < 8 → f[k]? = some (BitVec.ofNat 64
         (s.num (storeKey (placeKey r.place) ((x.wsp - 64).toNat + 8 * k)) 8))) ∧
   ∀ (s t u : State) (r : SlotRef) (f : List Dword),
     (s.slot r).frames.getLast? = some f → f.length = 8 → (s.slot r).frames.length = 3 →
     (s.slot r).spillBlocked = false → exec (.windowSpill r) s = .next t →
     exec (.windowFill r) (t.modSlot r fun x => { x with frames := [] }) = .next u → (u.slot r).frames = [f])

/-- NOP only goes on. TRAP takes SWT with its code. TRET in a handler goes back to TEPC, or to RPC after an asynchronous trap, and clears
INH; in a control core it gives the fetch source back. Outside a handler it raises ILL. Words that are no instruction raise ILL, or ORPH for a
prefix after a prefix, and the marker of a stream's end raises SEGV (R41, R58, R83, R262, R290, R342, R368, R369). -/
def Obligations.SimpleControl : Prop :=
  (∀ (s : State) (q : R4), s.issues (.nop q) q = true →
    ∃ t, exec (.nop q) s = .next t ∧ s.onlySlot t (s.past (.nop q) s.now)) ∧
  (∀ (s : State) (q : R4) (code : BitVec 11), s.issues (.trap q code) q = true →
    exec (.trap q code) s = .next (s.begun.takeTrap s.cur { cause := cSWT, code := code.toNat })) ∧
  (∀ (s : State) (q : R4),
    let i : Instr := .tret q
    let x := s.now
    let y := if isCtl s.cur.place then { x with cfs := x.tcfs, cfb := x.tcfb } else x
    s.issues i q = true →
    if x.streamed ∨ x.tinfo.getLsbD 30 = false then exec i s = .next (s.begun.takeTrap s.cur { cause := cILL })
    else ∃ t, exec i s = .next t ∧ s.onlySlot t (Claims.at_ { y with tinfo := x.tinfo &&& ~~~((1 : Dword) <<< 30) }
      (if x.tinfo.getLsbD 0 then x.tinfo.extractLsb' 48 16 else x.tepc))) ∧
  (∀ (s : State) (w : Word) (why : BadWord), (s.slot s.cur).capturing = none →
    exec (.notAnInstruction w why) s = .next ((s.chargeIssue s.cur).takeTrap s.cur
      { cause := if why = .secondPrefix then cORPH else cILL })) ∧
  ∀ (s : State) (beyond : BitVec 32),
    exec (.streamImageEndMarker beyond) s = .next (s.takeTrap s.cur { cause := cSEGV, taddr := beyond.zeroExtend 64 })

/-- In local mode, and in a spawned slot, VOTE sets qd := QW[qa] for both ANY and ALL, and it completes within the rotation (R91). A spawned
slot runs in local mode (R76). -/
def Obligations.VoteLocally : Prop :=
  (∀ (s : State) (q a d : R4) (all : Bool), s.issues (.vote q all a d) q = true → s.now.streamed = false →
    ∃ t, exec (.vote q all a d) s = .next t ∧ s.onlySlot t (s.past (.vote q all a d) (s.now.setQ d (s.now.getQ a)))) ∧
  ∀ (t : Turnstile) (r : SpawnReq) (k : Nat), (spawnedSlot t r k).spawned = true ∧ (spawnedSlot t r k).streamed = false

/-- A prefix word (R50): RLX in [13], SAT in [12] and RM in [11:9], which selects the rounding of its instruction, or RND's; it raises ILL
when RM holds 101-111, when OP7 is not 0 or when any bit of [31:14] is set, and with every field zero it changes nothing. It stays
pending for the next word, in a stream with its word still in the buffer (the model's reading of how it issues, log 19); after a prefix it
is ORPH (R41, R52, R78). -/
def Obligations.PrefixWords : Prop :=
  (∀ w w1 : Word, w.extractLsb' 0 2 = 2 →
    let bad := 5 ≤ (w.extractLsb' 9 3).toNat ∨ w.extractLsb' 2 7 ≠ 0 ∨ w.extractLsb' 14 18 ≠ 0
    (bad → decode w w1 = .error .malformedPrefix) ∧
    (¬ bad → ∃ rm, rm.code = w.extractLsb' 9 3 ∧ decode w w1 = .ok (.pfx (w.getLsbD 13) (w.getLsbD 12) rm))) ∧
  (∀ (s : State) (w : Word), (s.slot s.cur).capturing = none →
    exec (.notAnInstruction w .malformedPrefix) s = .next ((s.chargeIssue s.cur).takeTrap s.cur { cause := cILL })) ∧
  (∀ (x : Slot) (p : Pre), x.pre = some p →
    x.sat = p.sat ∧ x.rlx = p.rlx ∧
    x.rmode = if p.rm.code = 0 then x.rnd else if p.rm.code = 1 then 0 else if p.rm.code = 2 then 1 else if p.rm.code = 3 then 2 else 3) ∧
  (∀ x : Slot, x.pre = none → x.sat = false ∧ x.rlx = false ∧ x.rmode = x.rnd) ∧
  ∀ (s : State) (rlx sat : Bool) (rm : Rm),
    let x := s.slot s.cur
    (x.pre = none → ∃ t, exec (.pfx rlx sat rm) s = .next t ∧
      t = { s with slots := t.slots, iod := t.iod } ∧ (∀ r, slotKey r ≠ slotKey s.cur → t.slot r = s.slot r) ∧
      t.slot s.cur = { x with
        pc := if x.streamed = true ∨ x.rpt ≠ none then x.pc else x.pc + 4
        pre := some { addr := x.at, rlx := rlx, sat := sat, rm := rm } }) ∧
    (x.pre ≠ none → x.capturing = none →
      exec (.pfx rlx sat rm) s = .next ((s.chargeIssue s.cur).takeTrap s.cur { cause := cORPH }))

/-- RPT in local mode captures its words and begins their first pass after them; a word that may not stand in a frame raises
ILL at it, with REP as the model reads it (log 21). In streamed mode its words are still to come, and they go east once the slot has executed them; a core whose
guard is false holds the n words back only. A word's prefix issues before it, at a position of its own (the model's
reading, log 19). The last word of the last repetition goes on after the frame (R59-R62, R354). -/
def Obligations.RepeatFrames : Prop :=
  (∀ (s : State) (q : R4) (vstep : BitVec 3) (count : Byte) (n : R4) (ws : List FrameWord) (next : BitVec 16),
    let i : Instr := .rpt q vstep count n
    let x := s.now
    let f : Rpt := { words := ws, missing := 0, count := count.toNat + 1, vstep := vstep.toNat, j := 0, idx := 0 }
    s.issues i q = true → x.streamed = false → s.begun.capture s.cur (n.toNat + 1) (x.pc + 4) = .words ws next →
    let y := { x with pc := next, since := 0, stage := .fresh }
    match frameBad f with
    | none => ∃ t, exec i s = .next t ∧ s.onlySlot t { y with rpt := some f, pre := none }
    | some (k, j) => exec i s = .next
        (((s.begun.setSlot s.cur y).setSlot s.cur { y with rpt := some { f with idx := k, j := j } }).takeTrap s.cur
          { cause := cILL })) ∧
  (∀ (s : State) (q : R4) (vstep : BitVec 3) (count : Byte) (n : R4),
    let i : Instr := .rpt q vstep count n
    let x := s.now
    let f : Rpt := { words := [], missing := n.toNat + 1, count := count.toNat + 1, vstep := vstep.toNat, j := 0, idx := 0 }
    s.issues i q = true → x.streamed = true → x.hold = 0 →
    let y : Slot := { x with hold := n.toNat + 2 }
    let z : Slot := { x with hold := 2 }
    ∃ t, exec i s = .next t ∧ s.onlySlot t
      (if x.getQ q then { (z.advance (x.onEast s.cur.place) 1 none) with rpt := some f }
       else { (y.advance (x.onEast s.cur.place) 1 none) with rpt := none })) ∧
  (∀ (s : State) (r : SlotRef) (f : Rpt) (w : FrameWord),
    let x := s.slot r
    (∀ va, x.stage ≠ .fetchFailed va) → x.rpt = some f → f.missing = 0 → f.words[f.idx]? = some w →
    (∀ p, w.pre = some p → x.pre = none → s.fetch r = .ins (.pfx p.rlx p.sat p.rm) x.pc) ∧
    (w.pre = none ∨ x.pre ≠ none → s.fetch r = .ins (stagger (f.j * f.vstep) w.ins) x.pc)) ∧
  ∀ (x : Slot) (f : Rpt) (east : Bool) (n : Nat), x.rpt = some f → f.missing = 0 → x.hold = 0 →
    let y := x.retire east n
    if f.idx + 1 < f.words.length then y.rpt = some { f with idx := f.idx + 1 } ∧ y.pc = x.pc
    else if f.j + 1 < f.count then y.rpt = some { f with idx := 0, j := f.j + 1 } ∧ y.pc = x.pc
    else y.rpt = none ∧ y.pre = none ∧ y.pc = x.pc


namespace Sys2Proof.Claims
open Sys2Proof.Machine

/-- One aligned access of n bytes. -/
def one (off : Dword) (n : Nat) : List Want := [{ off := off, size := n, al := n, pos := 0 }]

/-- What an instruction loads: guard, segment, accesses, and the g register with how many bytes enter it and how, or the v
register with the byte lanes that take bytes and what the others hold (R333, R377-R379). -/
def loadOf (s : State) : Instr → Option (R4 × BitVec 3 × List Want × LoadDest)
  | .ldI8 q p sg a d => some (q, sg, one (s.now.getG a + p.signExtend 64) 1, .g d 1 true)
  | .ldI16 q p sg a d => some (q, sg, one (s.now.getG a + 2 * p.signExtend 64) 2, .g d 2 true)
  | .ldI32 q p sg a d => some (q, sg, one (s.now.getG a + 4 * p.signExtend 64) 4, .g d 4 true)
  | .ldI64 q p sg a d => some (q, sg, one (s.now.getG a + 8 * p.signExtend 64) 8, .g d 8 true)
  | .ldN8 q p sg a d => some (q, sg, one (s.now.getG a + p.signExtend 64) 1, .g d 1 false)
  | .ldN16 q p sg a d => some (q, sg, one (s.now.getG a + 2 * p.signExtend 64) 2, .g d 2 false)
  | .ldN32 q p sg a d => some (q, sg, one (s.now.getG a + 4 * p.signExtend 64) 4, .g d 4 false)
  | .ldLong q t p sg a d =>
    some (q, sg, one (s.now.getG a + p.signExtend 64) (LdType.bytes t), .g d (LdType.bytes t) (ldSigned t))
  | .vld q p m sg a d => some (q, sg, one (s.now.getG a + 64 * p.signExtend 64) 64, .v d (s.now.getV d) (s.now.getM m))
  | .vlds q ts m sg a d =>
    match shapedWants s.now (s.begun.shapeFor s.cur s.now ts) m sg a with
    | .inl ws => some (q, sg, ws, .v d (s.now.getV d) (wantMask ws))
    | .inr _ => none
  | .vgth q t z m b a d =>
    match indexedWants s.now t m b a with
    | .inl ws => some (q, 0, ws, .v d (if z then 0 else s.now.getV d) (wantMask ws))
    | .inr _ => none
  | _ => none

/-- What an instruction stores: guard, segment, accesses, the operand, and the byte lanes of it that are stored (R362, R364,
R377-R379). -/
def storeOf (s : State) : Instr → Option (R4 × BitVec 3 × List Want × Nat × Dword)
  | .st q z p sg a d =>
    some (q, sg, one (s.now.getG a + BitVec.ofNat 64 (2 ^ z.toNat) * p.signExtend 64) (2 ^ z.toNat), (s.now.getG d).toNat, -1)
  | .stLong q z p sg a d => some (q, sg, one (s.now.getG a + p.signExtend 64) (2 ^ z.toNat), (s.now.getG d).toNat, -1)
  | .vst q p m sg a d => some (q, sg, one (s.now.getG a + 64 * p.signExtend 64) 64, (s.now.getV d).toNat, s.now.getM m)
  | .vsts q ts m sg a d =>
    match shapedWants s.now (s.begun.shapeFor s.cur s.now ts) m sg a with
    | .inl ws => some (q, sg, ws, (s.now.getV d).toNat, -1)
    | .inr _ => none
  | .vsct q t m b a d =>
    match indexedWants s.now t m b a with
    | .inl ws => some (q, 0, ws, (s.now.getV d).toNat, -1)
    | .inr _ => none
  | .shst q ts p sg a =>
    some (q, sg, one (s.now.getG a + p.signExtend 64) 32, ((s.begun.shapeFor s.cur s.now ts).getD 0).toNat, -1)
  | _ => none

/-- Accesses that are performed in this step: unmarked ones to bytes of memory that no earlier access of the slot or, for a
store, of its die's egress queue has still to reach, that the interposer does not lose, and that meet no poison (R122, R144, R234, R238,
R265). -/
def performed (s : State) (ps : List Part) (store : Bool) (each : Bool := false) : Prop :=
  (∀ p ∈ ps, p.piece.isSome) ∧ relaxedHere s.cur s.now = false ∧ (∀ va, s.now.stage ≠ .failed va) ∧
  (∀ reply, s.now.stage ≠ .lost reply) ∧
  s.now.unperformed (piecesOf ps) = false ∧ (store = true → s.begun.queuedStores (dieOf s.cur.place) (piecesOf ps) = false) ∧
  ∀ k ∈ piecesOf ps, if store then s.begun.storeBad each (piecesOf ps) k = false else s.begun.piecePoisoned k = false

/-- Whether each part of a store is a store of its own against poison: those of a scatter are (R377). -/
def eachAlone : Instr → Bool
  | .vsct .. => true
  | _ => false

/-- Shape slot ts of the current slot's place holds a new record, and of the core nothing else changed; an instruction that is under way
in another slot there still reads what it sampled (R154). -/
def reshaped (s t : State) (ts : BitVec 5) (v : Option (BitVec 256)) : Prop :=
  let p := placeKey s.cur.place
  t.sites = (s.modSite p fun y => { y with ts := (t.site p).ts, oldTs := (t.site p).oldTs }).sites ∧
  (∀ u, t.shape p u = if u = ts then v else s.shape p u) ∧
  ∀ r u, r.place = s.cur.place → r.k < 8 → slotKey r ≠ slotKey s.cur → (s.slot r).since ≠ 0 → (s.slot r).since < s.fresh →
    t.shapeFor r (t.slot r) u = s.shapeFor r (s.slot r) u

/-- Nothing changed but the current slot, the account's counters and the port counters of the dies, and what enters the networks: flits
at the routers, packets that bring no event, and cycles of the links they wait for (and, in the model's own fields, free values drawn and
names given); of an access that reads, also errors that it corrected and their
counts (R122, R144); of one that writes, also memory with its key marks, poison and errors. -/
def onlyAccess (s t : State) (reads writes : Bool) : Prop :=
  (∀ r, slotKey r ≠ slotKey s.cur → t.slot r = s.slot r) ∧
  t = { s with
    slots := t.slots, iod := { s.iod with accounts := t.iod.accounts }, dies := t.dies, routers := t.routers, draws := t.draws
    packets := t.packets, work := t.work, nextId := t.nextId
    mem := t.mem, tags := t.tags, poison := t.poison, wrong := t.wrong, banks := t.banks, mds := t.mds } ∧
  (∀ d, t.die d = { s.die d with portNear := (t.die d).portNear, portFar := (t.die d).portFar }) ∧
  (∀ c, ∃ fs, t.router c = { s.router c with inject := (s.router c).inject ++ fs }) ∧
  (∃ ps, t.packets = s.packets ++ ps ∧ ∀ p ∈ ps, p.ev = none) ∧
  (∃ es, t.work = s.work ++ es ∧ ∀ e ∈ es, ∃ n, e = .packetHop n 5) ∧
  (∀ b, t.bank b = { s.bank b with ce := (t.bank b).ce }) ∧
  (∀ m, t.md m = { s.md m with corrected := (t.md m).corrected }) ∧
  (reads = false → t.banks = s.banks ∧ t.mds = s.mds) ∧
  (writes = false → t.mem = s.mem ∧ t.tags = s.tags ∧ t.poison = s.poison)

/-- The first access whose packets cross the interposer (R8, R265). -/
def crossing (s : State) (ps : List Part) : Option Part :=
  ps.find? fun p => match p.home with
    | some n => nodeOf s.cur.place != n && !(onMesh (nodeOf s.cur.place) && onMesh n && coreDie (nodeOf s.cur.place) == coreDie n)
    | none => false

/-- The slot once loaded bytes entered their register (R333, R378). -/
def loaded (x : Slot) (dest : LoadDest) (bs : List Byte) : Slot :=
  match dest with
  | .g d n true => x.setG d (BitVec.ofInt 64 (BitVec.ofNat (8 * n) (ofLe bs)).toInt)
  | .g d _ false => x.setG d (BitVec.ofNat 64 (ofLe bs))
  | .v d base mask => x.setV d (vecOf 8 ((List.range 64).map fun i => if mask.getLsbD i then ((bs[i]?).getD 0).toNat else lane base 8 i))
  | _ => x

/-- A byte after stores of parts of an operand, in order: the last part that covers it gives its value. -/
def storedByte (v : Nat) (ps : List Part) (a : Nat) (b : Byte) : Byte :=
  (piecesOf ps).foldl (fun b p => if p.key ≤ a ∧ a < p.key + p.n then BitVec.ofNat 8 (v / 2 ^ (8 * (p.pos + (a - p.key)))) else b) b

/-- A byte of a method's state block after stores of parts of an operand, in order. -/
def blockStored (v : Nat) (ps : List Part) (a : Nat) (b : Byte) : Byte :=
  ps.foldl (fun b p => match p.spot with
    | .block k => if k ≤ a ∧ a < k + p.n then BitVec.ofNat 8 (v / 2 ^ (8 * (p.pos + (a - k)))) else b
    | _ => b) b

end Sys2Proof.Claims

/-- An access through s0 of a core to window w resolves as R103 says: an attached bank that grants the right gives the byte of the bank, a
right it lacks is withheld with SEGV, a window in LAND, in claim, handed over or empty in await mode parks the slot, and an empty one in fault mode raises
WDET. Beyond the 16 windows, and then off its alignment, it is SEGV. Through s1-s7 an invalid segment, a limit it exceeds or a right it lacks
raises SEGV at BASE + off, then misalignment does; a segment of another device leaves as a request; else the port TLB of the core's die
translates: a miss, a migrating page, a right the leaf lacks (with no new walk: the model's reading, log 12) and a store to a DUP page park, and a hit gives the byte its PLACE code names
(R101, R103, R112, R130, R131, R137, R139, R142, R143). -/
def Obligations.AccessOutcomes : Prop :=
  (∀ (s : State) (r : SlotRef) (c : Nat) (a : Dword) (n al : Nat) (acc : Acc), r.place = .mesh c →
     let e := s.entry c (a.toNat / 2 ^ 16)
     let reads := acc = .load ∨ acc = .fetch ∨ acc = .copyRead ∨ acc = .atomic
     let writes := acc = .store ∨ acc = .copyWrite ∨ acc = .atomic
     (2 ^ 20 < a.toNat + n ∨ a.toNat % al ≠ 0 → s.look r 0 a n acc al = .trap cSEGV a) ∧
     (a.toNat + n ≤ 2 ^ 20 → a.toNat % al = 0 →
       (e.att = true → e.land = true ∨ s.handing c (a.toNat / 2 ^ 16) = true →
         s.look r 0 a n acc al = .park (.window (a.toNat / 2 ^ 16))) ∧
       (e.att = true → e.land = false → s.handing c (a.toNat / 2 ^ 16) = false →
         (reads ∧ e.rd = false ∨ writes ∧ e.wr = false → s.look r 0 a n acc al = .denied a) ∧
         ((reads → e.rd = true) → (writes → e.wr = true) →
           s.look r 0 a n acc al = .at (.run (bankKey e.bank (a.toNat % 2 ^ 16)) 0))) ∧
       (e.att = false → e.clm = true → s.look r 0 a n acc al = .park (.window (a.toNat / 2 ^ 16))) ∧
       (e.att = false → e.clm = false → e.fault = false → s.look r 0 a n acc al = .park (.window (a.toNat / 2 ^ 16))) ∧
       (e.att = false → e.clm = false → e.fault = true → s.look r 0 a n acc al = .trap cWDET a))) ∧
  (∀ (s : State) (r : SlotRef) (c : Nat) (sg : BitVec 3) (off : Dword) (n al : Nat) (acc : Acc), r.place = .mesh c → sg ≠ 0 →
     let d := (s.slot r).getS sg
     let va := BitVec.ofNat 64 (d.extractLsb' 0 48).toNat + off
     let dev := (d.extractLsb' 48 16).toNat
     let owner := (s.slot r).owner.toNat
     (segOk d off n acc = false ∨ va.toNat % al ≠ 0 → s.look r sg off n acc al = .trap cSEGV va) ∧
     (segOk d off n acc = true → va.toNat % al = 0 →
       (dev ≠ 0 → s.look r sg off n acc al = .at (.remote dev va)) ∧
       (dev = 0 → d.getLsbD 100 = false →
         match (s.die (coreDie c)).lookup owner va.toNat with
         | none => s.look r sg off n acc al = .park (.tlb va.toNat acc)
         | some e =>
           let pa := (e.leaf.extractLsb' 32 32).toNat * 2 ^ 16 + va.toNat % 2 ^ leafShift e.leaf
           let place := (e.leaf.extractLsb' 6 2).toNat
           let key := if place = 0 then hashKey pa
             else if place = 1 then dramKey (e.leaf.extractLsb' 24 3).toNat pa else dramKey (coreDie c) pa
           s.look r sg off n acc al =
             if e.leaf.getLsbD 8 then .park (.migrating va.toNat acc)
             else if leafRights e.leaf acc = false then .park (.fault va.toNat acc .rights)
             else if place = 2 ∧ acc.writes = true then .park (.fault va.toNat acc .dupw)
             else .at (.run key (dramTag (e.leaf.extractLsb' 16 8).toNat pa)))))

/-- A load that is performed writes its register with the bytes of its accesses and changes nothing else: scalar loads extend
them by their type, vector loads keep the byte lanes that are off (VGTH with Z clears them). Every byte of memory is as it
was (R333, R377, R378, R379; frame). -/
def Obligations.Loads : Prop :=
  ∀ (i : Instr) (s : State) (q : R4) (sg : BitVec 3) (ws : List Want) (dest : LoadDest) (ps : List Part),
    Claims.loadOf s i = some (q, sg, ws, dest) → s.issues i q = true → s.begun.places s.cur sg .load ws = .ok ps →
    Claims.performed s ps false → (∀ p ∈ piecesOf ps, s.begun.foreign p = false) →
    ∃ t bs, exec i s = .next t ∧ t.slot s.cur = s.past i (Claims.loaded s.now dest bs) ∧ Claims.onlyAccess s t true false ∧
      bs.length = dest.size ∧
      ∀ p ∈ piecesOf ps, ∀ j, j < p.n → bs[p.pos + j]? = (s.begun.readOn (dieOf s.cur.place) p)[j]?

/-- A store that is performed writes the bytes of its operand at the places of its accesses, only under its mask for VST, the
higher lane last for VSCT, and nothing else: every other byte of memory is as it was. In a carousel method a store to the state block enters
the method's write buffer, and memory is as it was; one that leaves more than 64 lines there traps with the overrun (R220, R362, R364, R377,
R378, R379; frame). -/
def Obligations.Stores : Prop :=
  (∀ (i : Instr) (s : State) (q : R4) (sg : BitVec 3) (ws : List Want) (v : Nat) (mask : Dword) (ps : List Part),
    Claims.storeOf s i = some (q, sg, ws, v, mask) → s.issues i q = true → s.begun.places s.cur sg .store ws = .ok ps →
    let qs := if mask = -1 then ps else ps.flatMap fun p => p.cut mask
    Claims.performed s qs true (Claims.eachAlone i) → s.now.method = none →
    ∃ t, exec i s = .next t ∧ t.slot s.cur = s.past i s.now ∧ Claims.onlyAccess s t false true ∧
      ∀ a, t.byte a = Claims.storedByte v qs a (s.byte a)) ∧
  ∀ (i : Instr) (s : State) (q : R4) (sg : BitVec 3) (ws : List Want) (v : Nat) (mask : Dword) (ps : List Part) (d : Nat) (m : Method),
    Claims.storeOf s i = some (q, sg, ws, v, mask) → s.issues i q = true → s.begun.places s.cur sg .store ws = .ok ps →
    let qs := if mask = -1 then ps else ps.flatMap fun p => p.cut mask
    s.cur.place = .carousel d → s.now.method = some m → qs ≠ [] → (∀ p ∈ qs, ∃ a, p.spot = .block a) → (∀ va, s.now.stage ≠ .failed va) →
    ∃ buf, let n : Method := { m with wbuf := buf }
      (∀ a, s.blockByte d n a = Claims.blockStored v qs a (s.blockByte d m a)) ∧
      if 64 < bufLines buf then exec i s = .next (s.begun.takeTrap s.cur
        { cause := cSEGV, taddr := (qs.head?.map Part.addr).getD 0, overrun := true })
      else ∃ t, exec i s = .next t ∧ s.onlySlot t (s.past i { s.now with method := some n })

/-- The first access of a load or store that traps or parks decides, in order: nothing is read, written or changed but for
that (R101, R103, R130, R131, R139, R236); only the SEGV of a window that withholds the right comes to a relaxed access later
(R333). VLDS, VSTS, VGTH and VSCT trap before with ELAL or SEGV where their shape or
their addresses do not fit (R377, R379). An unmarked access whose packets the interposer loses raises RWR with REASON 1 at the first that
crosses it; a lost request leaves memory as it was, a lost reply comes after the access was performed (R265; how a loss is told to the
model, log 40). -/
def Obligations.AccessStops : Prop :=
  (∀ (i : Instr) (s : State) (q : R4) (sg : BitVec 3) (ws : List Want) (acc : Acc),
    ((∃ dest, acc = .load ∧ Claims.loadOf s i = some (q, sg, ws, dest)) ∨
      ∃ v mask, acc = .store ∧ Claims.storeOf s i = some (q, sg, ws, v, mask)) →
    s.issues i q = true → (∀ va, s.now.stage ≠ .failed va) →
    match s.begun.places s.cur sg acc ws with
    | .trap c a => exec i s = .next (s.begun.takeTrap s.cur { cause := c, taddr := a })
    | .denied a =>
      if relaxedHere s.cur s.now then ∃ dest, (acc = .store → dest = .none) ∧
        (∀ d, Claims.loadOf s i = some (q, sg, ws, d) → dest = d) ∧
        exec i s = .next (Claims.goOn s i (s.begun.relaxedFault s.cur s.now.at cSEGV a 0 dest))
      else exec i s = .next (s.begun.takeTrap s.cur { cause := cSEGV, taddr := a })
    | .park p => exec i s = .next (s.begun.parkOn s.cur p)
    | .ok _ => True) ∧
  (∀ (i : Instr) (s : State) (q : R4) (sg : BitVec 3) (ws : List Want) (acc : Acc) (v : Nat) (mask : Dword) (ps : List Part) (reply : Bool)
      (p : Part),
    let qs := if acc = .load ∨ mask = -1 then ps else ps.flatMap fun p => p.cut mask
    (acc = .load ∧ (∃ dest, Claims.loadOf s i = some (q, sg, ws, dest)) ∨ acc = .store ∧ Claims.storeOf s i = some (q, sg, ws, v, mask)) →
    s.issues i q = true → s.begun.places s.cur sg acc ws = .ok ps → s.now.stage = .lost reply → relaxedHere s.cur s.now = false →
    (∀ k ∈ qs, k.piece.isSome) → s.now.unperformed (piecesOf qs) = false →
    (acc = .store → s.begun.queuedStores (dieOf s.cur.place) (piecesOf qs) = false) → Claims.crossing s qs = some p →
    let t : TrapInfo := { cause := cRWR, taddr := p.addr, reason := 1 }
    (reply = false → exec i s = .next (s.begun.takeTrap s.cur t)) ∧
    (reply = true → ∃ u, exec i s = .next (u.takeTrap s.cur t) ∧ u.slot s.cur = s.now ∧ Claims.onlyAccess s u (decide (acc = .load)) (decide (acc = .store)) ∧
      (acc = .store → (∀ k ∈ piecesOf qs, s.begun.storeBad (Claims.eachAlone i) (piecesOf qs) k = false) →
        ∀ a, u.byte a = Claims.storedByte v qs a (s.byte a)))) ∧
  (∀ (s : State) (q a d : R4) (ts : BitVec 5) (m sg : BitVec 3) (t : Dword),
    shapedWants s.now (s.begun.shapeFor s.cur s.now ts) m sg a = .inr t →
    (s.issues (.vlds q ts m sg a d) q = true →
      exec (.vlds q ts m sg a d) s = .next (s.begun.takeTrap s.cur { cause := cELAL, taddr := t })) ∧
    (s.issues (.vsts q ts m sg a d) q = true →
      exec (.vsts q ts m sg a d) s = .next (s.begun.takeTrap s.cur { cause := cELAL, taddr := t }))) ∧
  ∀ (s : State) (q b a d : R4) (t : VType) (z : Bool) (m : BitVec 3) (u : Dword),
    indexedWants s.now t m b a = .inr u →
    (s.issues (.vgth q t z m b a d) q = true →
      match s.begun.places s.cur 0 .load (indexedBefore s.now t m b a) with
      | .ok _ => exec (.vgth q t z m b a d) s = .next (s.begun.takeTrap s.cur { cause := cSEGV, taddr := u })
      | .trap c v => exec (.vgth q t z m b a d) s = .next (s.begun.takeTrap s.cur { cause := c, taddr := v })
      | .park p => exec (.vgth q t z m b a d) s = .next (s.begun.parkOn s.cur p)
      | .denied v => relaxedHere s.cur s.now = false →
        exec (.vgth q t z m b a d) s = .next (s.begun.takeTrap s.cur { cause := cSEGV, taddr := v })) ∧
    (s.issues (.vsct q t m b a d) q = true →
      match s.begun.places s.cur 0 .store (indexedBefore s.now t m b a) with
      | .ok _ => exec (.vsct q t m b a d) s = .next (s.begun.takeTrap s.cur { cause := cSEGV, taddr := u })
      | .trap c v => exec (.vsct q t m b a d) s = .next (s.begun.takeTrap s.cur { cause := c, taddr := v })
      | .park p => exec (.vsct q t m b a d) s = .next (s.begun.parkOn s.cur p)
      | .denied v => relaxedHere s.cur s.now = false →
        exec (.vsct q t m b a d) s = .next (s.begun.takeTrap s.cur { cause := cSEGV, taddr := v }))

/-- SHLD puts the 32 bytes it reads into its shape slot when they are a legal record, and raises SHAL when they are not; SHEV
makes a slot invalid. An instruction under way in another slot of the core goes on with the record that it sampled (R154, R156, R362). -/
def Obligations.ShapeSlots : Prop :=
  (∀ (s : State) (q a : R4) (ts : BitVec 5) (disp : Word) (sg : BitVec 3) (ps : List Part),
    let i : Instr := .shld q ts disp sg a
    let off := s.now.getG a + disp.signExtend 64
    s.issues i q = true → s.begun.places s.cur sg .load (Claims.one off 32) = .ok ps → Claims.performed s ps false →
    (∀ p ∈ piecesOf ps, s.begun.foreign p = false) →
    ∀ p ∈ piecesOf ps,
      let bs := s.begun.readOn (dieOf s.cur.place) p
      let rec_ := BitVec.ofNat 256 (ofLe bs)
      if shapeOk rec_ then ∃ t, exec i s = .next t ∧ t.slot s.cur = s.past i s.now ∧
        Claims.reshaped s t ts (some rec_) ∧ ∀ a, t.byte a = s.byte a
      else ∃ u, u.slot s.cur = s.now ∧ Claims.onlyAccess s u true false ∧
        exec i s = .next (u.takeTrap s.cur { cause := cSHAL, taddr := s.begun.faultAddr s.cur sg off })) ∧
  ∀ (s : State) (q : R4) (ts : BitVec 5), s.issues (.shev q ts) q = true →
    let t := Claims.goOn s (.shev q ts) (s.begun.setShape s.cur.place ts.toNat none)
    exec (.shev q ts) s = .next t ∧ Claims.reshaped s t ts none


namespace Sys2Proof.Claims
open Sys2Proof.Machine

/-- An atomic of the package: guard, segment, offset, bytes, destination, and what it makes of the old word: the new word, what
the destination receives, and q15 (R210, R302). -/
def atomOf (x : Slot) : Instr → Option (R4 × BitVec 3 × Dword × Nat × R4 × (Dword → Dword × Dword × Option Bool))
  | .aadd q p sg a d => some (q, sg, x.getG a + 8 * p.signExtend 64, 8, d, fun o => (o + x.getG d, o, none))
  | .aand q p sg a d => some (q, sg, x.getG a + 8 * p.signExtend 64, 8, d, fun o => (o &&& x.getG d, o, none))
  | .aor q p sg a d => some (q, sg, x.getG a + 8 * p.signExtend 64, 8, d, fun o => (o ||| x.getG d, o, none))
  | .axor q p sg a d => some (q, sg, x.getG a + 8 * p.signExtend 64, 8, d, fun o => (o ^^^ x.getG d, o, none))
  | .amin q p sg a d =>
    some (q, sg, x.getG a + 8 * p.signExtend 64, 8, d, fun o => (if (x.getG d).toInt < o.toInt then x.getG d else o, o, none))
  | .amax q p sg a d =>
    some (q, sg, x.getG a + 8 * p.signExtend 64, 8, d, fun o => (if o.toInt < (x.getG d).toInt then x.getG d else o, o, none))
  | .axch q p sg a d => some (q, sg, x.getG a + 8 * p.signExtend 64, 8, d, fun o => (x.getG d, o, none))
  | .acas q true p sg b a d =>
    some (q, sg, x.getG a + p.signExtend 64, 8, d, fun o => (if o = x.getG d then x.getG b else o, o, some (o == x.getG d)))
  | .acas q false p sg b a d =>
    some (q, sg, x.getG a + p.signExtend 64, 4, d, fun o =>
      let ok := o.extractLsb' 0 32 == (x.getG d).extractLsb' 0 32
      (if ok then x.getG b else o, (o.extractLsb' 0 32).signExtend 64, some ok))
  | _ => none

/-- A word of n bytes of memory, as a number in 64 bits. -/
def word (s : State) (k n : Nat) : Dword := BitVec.ofNat 64 (ofLe (s.bytes k n))

/-- The slot with an atomic's results. -/
def withAtom (x : Slot) (d : R4) (v : Dword) : Option Bool → Slot
  | none => x.setG d v
  | some b => (x.setG d v).setQ 15 b

/-- A store of an egress queue that may leave for its memory die: it has not left, and no earlier one to its bytes stands there (R234). -/
def canLeave (es : List Egress) (i : Nat) (e : Egress) : Prop :=
  es[i]? = some e ∧ e.gone = false ∧ ∀ f, f ∈ es.take i → piecesMeet f.pieces e.pieces = false

/-- A byte after pieces of data are written, in order. -/
def dataByte (data : List Byte) (ps : List Piece) (b : Nat) (old : Byte) : Byte :=
  ps.foldl (fun c p => if p.key ≤ b ∧ b < p.key + p.n then (((data.drop p.pos).take p.n)[b - p.key]?).getD c else c) old

end Sys2Proof.Claims

/-- An atomic on a word whose queue is empty reads it, stores what it makes of it, gives the old word to its destination (ACAS: and sets
q15), and changes no other byte of memory and nothing else. Where an atomic or LRW stops: an access that is refused or parks decides; a slot that
holds or awaits a reservation raises ILL; poison raises POIS and nothing is written; a word whose queue is not empty makes it wait in line, or in
its core when 64 wait. One whose packets the interposer loses leaves its registers and takes RAI at the next synchronisation point; its
word is as it was when the request is lost, and changed when the reply is (R122, R207-R210, R265, R302, R305, R335; how a loss is told to the
model, log 40; frame). -/
def Obligations.Atomics : Prop :=
  (∀ (i : Instr) (s : State) (q : R4) (sg : BitVec 3) (off : Dword) (n : Nat) (d : R4) (f : Dword → Dword × Dword × Option Bool)
     (k tag : Nat), Claims.atomOf s.now i = some (q, sg, off, n, d, f) → s.issues i q = true → s.now.stage = .fresh →
     s.now.resv = none → s.begun.look s.cur sg off n .atomic n = .at (.run k tag) → s.poisoned k = false →
     s.foreign { pos := 0, key := k, n := n, tag := tag } = false → s.now.drained (if isDram k then 1 else 0) = true →
     s.begun.queuedStores (dieOf s.cur.place) [{ pos := 0, key := k, n := n, tag := tag }] = false →
     tget [] s.resv (k / 8 * 8) = [] → k % n = 0 →
     let r := f (Claims.word s k n)
     ∃ t, exec i s = .next t ∧ t.slot s.cur = s.past i (Claims.withAtom s.now d r.2.1 r.2.2) ∧ Claims.onlyAccess s t true true ∧
       ∀ a, t.byte a = if k ≤ a ∧ a < k + n then BitVec.ofNat 8 (r.1.toNat / 2 ^ (8 * (a - k))) else s.byte a) ∧
  (∀ (i : Instr) (s : State) (q : R4) (sg : BitVec 3) (off : Dword) (n : Nat) (d : R4) (f : Dword → Dword × Dword × Option Bool)
     (k tag : Nat) (reply : Bool), Claims.atomOf s.now i = some (q, sg, off, n, d, f) → s.issues i q = true → s.now.stage = .lost reply →
     s.now.resv = none → s.begun.look s.cur sg off n .atomic n = .at (.run k tag) → s.poisoned k = false →
     s.foreign { pos := 0, key := k, n := n, tag := tag } = false → s.now.drained (if isDram k then 1 else 0) = true →
     s.begun.queuedStores (dieOf s.cur.place) [{ pos := 0, key := k, n := n, tag := tag }] = false →
     tget [] s.resv (k / 8 * 8) = [] → k % n = 0 →
     Claims.crossing s [{ pos := 0, n := n, spot := .run k tag, addr := s.begun.faultAddr s.cur sg off }] ≠ none →
     ∃ t e, exec i s = .next t ∧ t.slot s.cur = s.past i { s.now with faults := insertFault e s.now.faults } ∧
       e.cause = cRAI ∧ e.taddr = s.begun.faultAddr s.cur sg off ∧ e.tepc = s.now.at ∧
       ∀ a, t.byte a = if reply = true ∧ k ≤ a ∧ a < k + n then BitVec.ofNat 8 ((f (Claims.word s k n)).1.toNat / 2 ^ (8 * (a - k))) else s.byte a) ∧
  (∀ (i : Instr) (s : State) (q : R4) (sg : BitVec 3) (off : Dword) (n : Nat) (atom : Bool),
     ((atom = true ∧ ∃ d f, Claims.atomOf s.now i = some (q, sg, off, n, d, f)) ∨
       (atom = false ∧ ∃ p a d, i = .lrw q p sg a d ∧ off = s.now.getG a + 8 * p.signExtend 64 ∧ n = 8)) →
     s.issues i q = true → s.now.stage = .fresh →
     (∀ c a, s.begun.look s.cur sg off n .atomic n = .trap c a →
       exec i s = .next (s.begun.takeTrap s.cur { cause := c, taddr := a })) ∧
     (∀ a, s.begun.look s.cur sg off n .atomic n = .denied a →
       exec i s = .next (s.begun.takeTrap s.cur { cause := cSEGV, taddr := a })) ∧
     (∀ p, s.begun.look s.cur sg off n .atomic n = .park p → s.now.resv = none →
       exec i s = .next (s.begun.parkOn s.cur p)) ∧
     ∀ k tag, s.begun.look s.cur sg off n .atomic n = .at (.run k tag) →
       let p : Piece := { pos := 0, key := k, n := n, tag := tag }
       (s.now.resv ≠ none → exec i s = .next (s.begun.takeTrap s.cur { cause := cILL })) ∧
       (s.now.resv = none → s.now.drained (if isDram k then 1 else 0) = true → s.begun.queuedStores (dieOf s.cur.place) [p] = false →
         let line := tget [] s.resv (k / 8 * 8)
         (64 < line.length → exec i s = .next (s.begun.parkOn s.cur (.lrwRoom (k / 8 * 8)))) ∧
         (line ≠ [] → line.length ≤ 64 → exec i s = .next
           ((({ s.begun with resv := tset [] s.resv (k / 8 * 8) (line ++ [s.cur]) }).modSlot s.cur
             fun x => { x with resv := some { key := k / 8 * 8, held := false, atomic := atom, piece := p } }).parkOn s.cur (.reservation (k / 8 * 8)))) ∧
         (line = [] → s.begun.piecePoisoned p = true → exec i s = .next
           ((s.begun.countWord s.cur p false).takeTrap s.cur { cause := cPOIS, taddr := s.begun.faultAddr s.cur sg off }))))

/-- LRW on a word nobody holds reads it and holds it. SCH by its holder stores, hands the word on and sets q15; RREL hands it
on; with no reservation SCH stores nothing and clears q15, and RREL does nothing; on another word both raise ILL. A grant reads
the word once no store to it stands in the egress queue of the grantee's die (R207, R208, R241, R335, R355). -/
def Obligations.Reservations : Prop :=
  (∀ (s : State) (q a d : R4) (p : Byte) (sg : BitVec 3) (k tag : Nat),
    let i : Instr := .lrw q p sg a d
    s.issues i q = true → s.now.stage = .fresh → s.now.resv = none →
    s.begun.look s.cur sg (s.now.getG a + 8 * p.signExtend 64) 8 .atomic 8 = .at (.run k tag) → s.poisoned k = false → k % 8 = 0 →
    s.foreign { pos := 0, key := k, n := 8, tag := tag } = false →
    s.begun.queuedStores (dieOf s.cur.place) [{ pos := 0, key := k, n := 8, tag := tag }] = false → tget [] s.resv k = [] →
    ∃ t, exec i s = .next t ∧
      t.slot s.cur = s.past i (Slot.setG { s.now with
        resv := some { key := k, held := true, atomic := false, piece := { pos := 0, key := k, n := 8, tag := tag } } } d (Claims.word s k 8)) ∧
      tget [] t.resv k = [s.cur] ∧ (∀ j, j ≠ k → tget [] t.resv j = tget [] s.resv j) ∧
      (∀ b, t.byte b = s.byte b) ∧ ∀ r, slotKey r ≠ slotKey s.cur → t.slot r = s.slot r) ∧
  (∀ (s : State) (q a d : R4) (p : Byte) (sg : BitVec 3) (k tag : Nat) (sch : Bool),
    let i : Instr := if sch then .sch q p sg a d else .rrel q p sg a
    s.issues i q = true → s.now.stage = .fresh →
    s.begun.look s.cur sg (s.now.getG a + 8 * p.signExtend 64) 8 .atomic 8 = .at (.run k tag) → k % 8 = 0 →
    (∀ v, s.now.resv = some v → v.key ≠ k → exec i s = .next (s.begun.takeTrap s.cur { cause := cILL })) ∧
    (s.now.resv = none → ∃ t, exec i s = .next t ∧ s.onlySlot t (s.past i (if sch then s.now.setQ 15 false else s.now))) ∧
    (∀ v, s.now.resv = some v → v.key = k → v.held = true → s.now.drained (if isDram k then 1 else 0) = true →
      s.begun.queuedStores (dieOf s.cur.place) [{ pos := 0, key := k, n := 8, tag := tag }] = false →
      ∃ t, exec i s = .next t ∧
        t.slot s.cur = s.past i (if sch then Slot.setQ { s.now with resv := none } 15 true else { s.now with resv := none }) ∧
        tget [] t.resv k = (tget [] s.resv k).filter (· ≠ s.cur) ∧ .reservationGrant k ∈ t.work ∧
        (∀ b, t.byte b = if sch = true ∧ k ≤ b ∧ b < k + 8 then BitVec.ofNat 8 ((s.now.getG d).toNat / 2 ^ (8 * (b - k))) else s.byte b) ∧
        ∀ r, slotKey r ≠ slotKey s.cur → t.slot r = s.slot r)) ∧
  (∀ (s : State) (r : SlotRef) (rest : List SlotRef) (k : Nat) (v : Resv), tget [] s.resv k = r :: rest →
    (s.slot r).resv = some v → v.held = false →
    exec (.reservationGrant k) s = .next
      (if s.queuedStores (dieOf r.place) [v.piece] then s.post (.reservationGrant k)
       else (s.drawPieces [v.piece]).setSlot r { s.slot r with
         resv := some { v with held := true }
         stage := .granted (BitVec.ofNat 64 (ofLe (s.readPiece v.piece))), status := .ready })) ∧
  ∀ (s : State) (r : SlotRef) (v : Resv), (s.slot r).resv = some v → v.held = true →
    ∃ t, exec (.reservationForceRelease r) s = .next t ∧ t.slot r = { s.slot r with resv := none } ∧
      tget [] t.resv v.key = (tget [] s.resv v.key).filter (· ≠ r) ∧ t.work = s.work ++ [.reservationGrant v.key]

/-- A relaxed access is performed when its request arrives: a load reads its bytes, a bank store writes them, and the reply leaves; a store to
DRAM from a die enters its egress queue. What meets poison completes with POIS, a load with zero, a store with nothing written. The reply
writes the load's register. A queued store leaves for its memory die when it is chosen, unless an earlier one to its bytes stands before it,
and is performed when it arrives, but for one that covers only part of what is poisoned by then (R122, R234, R237, R238, R261, R364). Which
queued store is chosen is a free value (log 4), and that it stands in the queue until it arrives is the model's (log 94). -/
def Obligations.RelaxedAccesses : Prop :=
  (∀ (s : State) (r : SlotRef) (id : Nat) (a : Relaxed),
    let x := s.slot r
    let die := dieOf r.place
    let bad : AsyncFault := { id := a.id, tepc := a.tepc, cause := cPOIS, taddr := a.va, reason := 0 }
    let done (y : Slot) (data : List Byte) : Slot := y.setRelaxed { a with arrived := true, data := data }
    let faulted : Slot := if x.status = Status.free then x else { x with faults := insertFault bad x.faults, status := x.status.interrupted }
    let replied (u : State) : Prop := exec (.accessRequestArrival r id) s = .next
      (u.route (relaxedNode r a) (nodeOf r.place) a.cls false (if a.store then 0 else a.bytes) (.accessReply r a.id))
    s.goneStore r id = none → x.relaxedBy id = some a → a.arrived = false → x.behind a = false →
    (a.store = false → s.poisonSeen die a.pieces = [] →
      ∃ u, replied u ∧ u.slot r = done x (assemble a.dest.size (a.pieces.map fun p => (p.pos, s.readOn die p))) ∧
        (∀ b, u.byte b = s.byte b) ∧ u.work = s.work) ∧
    (a.store = false → s.poisonSeen die a.pieces ≠ [] →
      ∃ u, replied u ∧ u.slot r = done faulted (List.replicate a.dest.size 0) ∧ (∀ b, u.byte b = s.byte b)) ∧
    (a.store = true → s.relaxedPoisoned die a.each a.pieces = false → ((∀ p ∈ a.pieces, isDram p.key = false) ∨ die = none) →
      ∃ u, replied u ∧ u.slot r = done x a.data ∧ ∀ b, u.byte b = Claims.dataByte a.data a.pieces b (s.byte b)) ∧
    (a.store = true → s.relaxedPoisoned die a.each a.pieces = true →
      ∃ u, replied u ∧ u.slot r = done faulted a.data ∧ ∀ b, u.byte b = s.byte b) ∧
    ∀ d, a.store = true → s.relaxedPoisoned die a.each a.pieces = false → (∃ p ∈ a.pieces, isDram p.key = true) → die = some d →
      ∃ t n, exec (.accessRequestArrival r id) s = .next t ∧ t.slot r = done x a.data ∧ (∀ b, t.byte b = s.byte b) ∧
        (t.die d).egress = (s.die d).egress ++ [{ slot := r, id := id, acct := s.acctOf r, port := a.port, pieces := a.pieces, data := a.data, each := a.each }] ∧
        n ≤ (s.die d).egress.length ∧ t.work = s.work ++ [.egressQueueDrain d n]) ∧
  (∀ (s : State) (r : SlotRef) (id : Nat) (a : Relaxed),
    (s.slot r).relaxedBy id = some a → a.arrived = true → a.away = 0 →
    exec (.accessReply r id) s = .next (s.setSlot r
      ((if a.store then s.slot r else loadInto (s.slot r) a.dest a.data).dropRelaxed id))) ∧
  (∀ (s : State) (d n : Nat),
    let es := (s.die d).egress
    (∀ i e, Claims.canLeave es i e → (i = n ∨ (∀ e, ¬ Claims.canLeave es n e) ∧ ∀ j, j < i → ∀ e, ¬ Claims.canLeave es j e) →
      ∃ t, exec (.egressQueueDrain d n) s = .next t ∧ (t.die d).egress = es.set i { e with gone := true } ∧ t.slots = s.slots ∧
        t.mem = s.mem ∧ (.accessRequestArrival e.slot e.id ∈ t.work ∨ ∃ p, p ∈ t.packets ∧ p.ev = some (.accessRequestArrival e.slot e.id))) ∧
    ((∀ i e, ¬ Claims.canLeave es i e) →
      exec (.egressQueueDrain d n) s = .next (if es.all Egress.gone then s else s.post (.egressQueueDrain d n)))) ∧
  ∀ (s : State) (r : SlotRef) (id d : Nat) (e : Egress), s.goneStore r id = some (d, e) →
    ∃ t, exec (.accessRequestArrival r id) s = .next t ∧ (t.die d).egress = (s.die d).egress.erase e ∧
      (e.pieces.any (s.storeBad e.each e.pieces) = false → t.slot e.slot = (s.slot e.slot).dropRelaxed e.id ∧
        ∀ b, t.byte b = Claims.dataByte e.data e.pieces b (s.byte b)) ∧
      (e.pieces.any (s.storeBad e.each e.pieces) = true → (∀ b, t.byte b = s.byte b) ∧
        ∀ a, (s.slot e.slot).relaxedBy e.id = some a → (s.slot e.slot).status ≠ .free →
          (t.slot e.slot).faults = insertFault { id := a.id, tepc := a.tepc, cause := cPOIS, taddr := a.va, reason := 0 } (s.slot e.slot).faults)

namespace Sys2Proof.Claims
open Sys2Proof.Machine

/-- A semaphore after an addition, which stops at 2^32 - 1 and sets OVF, or a set, which clears OVF (R204). -/
def semAfter (v : Sem) : SemOp → Sem
  | .add n => if v.count.toNat + n < 2 ^ 32 then { count := v.count + BitVec.ofNat 32 n, ovf := v.ovf } else { count := -1, ovf := true }
  | .set n => { count := BitVec.ofNat 32 n, ovf := false }

/-- A slot's SWAIT of semaphore j of place p is satisfied by a count (R204). -/
def waitMet (s : State) (p j : Nat) (v : Sem) (r : SlotRef) : Prop :=
  slotKey r / 8 = p ∧ ∃ w, (s.slot r).status = .parked (.swait j w) ∧ w.toNat ≤ v.count.toNat

/-- A slot after a change of a semaphore: its SWAIT is complete when it is satisfied, and nothing of it changed when it is not (R204). -/
def wokenOr (s t : State) (p j : Nat) (v : Sem) (r : SlotRef) : Prop :=
  (waitMet s p j v r → t.slot r = { (s.slot r).retire ((s.slot r).onEast (placeOf p)) 1 with status := .ready }) ∧
  (¬ waitMet s p j v r → t.slot r = s.slot r)

/-- What an operation on a semaphore of a place changes: the semaphore, and the slots of the place that wait for no more than it
holds now, whose SWAITs are complete (R204). -/
def semDone (s t : State) (p j : Nat) (op : SemOp) : Prop :=
  let v := semAfter ((s.site p).sem j) op
  (t.site p).sem j = v ∧ (∀ k, k ≠ j → (t.site p).sem k = (s.site p).sem k) ∧ (∀ c, c ≠ p → t.site c = s.site c) ∧
  (∀ b, t.byte b = s.byte b) ∧
  ∀ r, slotKey r ≠ slotKey s.cur → wokenOr s t p j v r

/-- A slot of place p is parked on something, and parked before every other slot there that is parked on such a thing (R200, R206). -/
def firstOf (s : State) (p : Nat) (r : SlotRef) (f : Park → Prop) : Prop :=
  (∃ k, (s.slot r).status = .parked k ∧ f k) ∧ r ∈ slotsAt p ∧
  ∀ u ∈ slotsAt p, ∀ k, (s.slot u).status = .parked k → f k → u = r ∨ (s.slot r).since < (s.slot u).since

/-- The 32-bit operand of a semaphore instruction. -/
def low32 (x : Slot) (a : R4) : Nat := ((x.getG a).extractLsb' 0 32).toNat

end Sys2Proof.Claims

/-- SADD, SSET and an arrival at a core's semaphore change the semaphore as R204 says and complete the SWAITs it satisfies, and no others; SWAIT
goes on at its threshold and parks below it. What arrives for a swapped-out context is logged, and what finds no target comes
back to its sender as RWR (R198, R204, R205, R319, R356).
Completes: SADD, SADD.L, SSET, SWAIT, SEMAPHORE_ARRIVAL. -/
def Obligations.Semaphores : Prop :=
  (∀ (s : State) (q a j : R4), s.now.status = .ready →
    (s.issues (.sadd q a j) q = true → ∃ t, exec (.sadd q a j) s = .next t ∧ t.slot s.cur = s.past (.sadd q a j) s.now ∧
      Claims.semDone s t (placeKey s.cur.place) j.toNat (.add (Claims.low32 s.now a))) ∧
    (s.issues (.sset q a j) q = true → ∃ t, exec (.sset q a j) s = .next t ∧ t.slot s.cur = s.past (.sset q a j) s.now ∧
      Claims.semDone s t (placeKey s.cur.place) j.toNat (.set (Claims.low32 s.now a)))) ∧
  (∀ (s : State) (q a j : R4), s.issues (.swait q a j) q = true →
    if Claims.low32 s.now a ≤ ((s.site (placeKey s.cur.place)).sem j.toNat).count.toNat then
      ∃ t, exec (.swait q a j) s = .next t ∧ s.onlySlot t (s.past (.swait q a j) s.now)
    else exec (.swait q a j) s = .next (s.begun.parkOn s.cur (.swait j.toNat ((s.now.getG a).extractLsb' 0 32)))) ∧
  (∀ (s : State) (q b a j : R4),
    let i : Instr := .saddLong q b a j
    let c := (s.now.getG a).toNat
    s.issues i q = true →
    if 2 ^ 13 ≤ c then exec i s = .next (s.begun.takeTrap s.cur { cause := cILL })
    else s.now.drained (if dieOf s.cur.place = some (coreDie c) then 0 else 1) = true →
      ∃ t e, exec i s = .next t ∧ t.slot s.cur = s.past i s.now ∧ t.sends = s.sends ++ [e] ∧ e.slot = s.cur ∧ e.dst = c ∧
        e.kind = .sem (.add (Claims.low32 s.now b)) j.toNat ∧
        let ev : Instr := .semaphoreArrival c j.toNat (.add (Claims.low32 s.now b))
        (ev ∈ t.work ∨ ∃ p ∈ t.packets, p.dst = c ∧ p.ev = some ev)) ∧
  ∀ (s : State) (c j : Nat) (op : SemOp),
    let e := s.sends.find? fun e => e.dst == c && (e.kind == .sem op j || e.kind == .signal op j)
    let u := match e with | some e => s.sentDone e.id | none => s
    (s.semTarget c e = .site → ∃ t, exec (.semaphoreArrival c j op) s = .next t ∧
      (t.site c).sem j = Claims.semAfter ((s.site c).sem j) op ∧ (∀ b, t.byte b = s.byte b) ∧
      ∀ r, Claims.wokenOr s t c j (Claims.semAfter ((s.site c).sem j) op) r) ∧
    (∀ n, s.semTarget c e = .log n → exec (.semaphoreArrival c j op) s = .next (u.logItem n
      { delivery := 2, core := c, slot := 0, num := j, seq := 0, payload := BitVec.ofNat 64 (match op with | .add k | .set k => k), header := 0 })) ∧
    (s.semTarget c e = .drop → exec (.semaphoreArrival c j op) s = .next (match e with
      | some e => if e.kind = .sem op j then u.noTarget e c else u
      | none => u))

/-- RECV takes the oldest message of the lowest named mailbox that holds one: the payload, and the header with the mailbox's
number, enter its register pair; with none it parks. A message for a loaded context with room goes behind those in its
mailbox, and to the RECV that parked first on an empty one, which completes with it; to a full mailbox it waits, and is then diverted to the arrival log, past the notices that are held back (R203); one for a
swapped-out context is logged; a message without a target is an asynchronous RWR of its sender (R197-R201, R350).
Completes: RECV, MESSAGE_ARRIVAL, MAILBOX_DIVERT, ARRIVAL_LOG_MOVE. -/
def Obligations.Mailboxes : Prop :=
  (∀ (s : State) (q : R4) (mask : BitVec 16) (pair : BitVec 3),
    let i : Instr := .recv q mask pair
    let p := placeKey s.cur.place
    s.issues i q = true → s.now.status = .ready →
    ((∀ j, j < 16 → mask.getLsbD j = true → (s.site p).mail j = []) → exec i s = .next (s.begun.parkOn s.cur (.recv mask pair))) ∧
    ∀ j m rest, j < 16 → mask.getLsbD j = true → (∀ k, k < j → mask.getLsbD k = true → (s.site p).mail k = []) →
      (s.site p).mail j = m :: rest →
      ∃ t, exec i s = .next t ∧
        t.slot s.cur = s.past i ((s.now.setG (pair ++ (0 : BitVec 1)) m.payload).setG (pair ++ (1 : BitVec 1))
          (m.header ||| BitVec.ofNat 64 (j * 2 ^ 60))) ∧
        ((s.site p).waiting j = [] → s.mailLogged p j = none → (t.site p).mail j = rest)) ∧
  (∀ (s : State) (c owner mb : Nat) (msg : Message) (sender : Option SlotRef),
    s.messageTarget c owner mb msg sender = .site → (∀ r, sender = some r → (s.sentMail c r).isSome = true) →
    (s.mailWaits c mb msg = false → s.mailLogged c mb = none →
      ((s.site c).mail mb ≠ [] ∨ ∀ r ∈ slotsAt c, ∀ mask pr, (s.slot r).status = .parked (.recv mask pr) → mask.getLsbD mb = false) →
      ∃ t, exec (.messageArrival c owner mb msg sender) s = .next t ∧ (t.site c).mail mb = (s.site c).mail mb ++ [msg] ∧
        (∀ r, t.slot r = s.slot r) ∧ ∀ b, t.byte b = s.byte b) ∧
    (∀ (r : SlotRef) (mask : BitVec 16) (pr : BitVec 3), s.mailWaits c mb msg = false → s.mailLogged c mb = none → (s.site c).mail mb = [] →
      Claims.firstOf s c r (fun k => ∃ m p, k = .recv m p ∧ m.getLsbD mb = true) → (s.slot r).status = .parked (.recv mask pr) →
      ∃ t, exec (.messageArrival c owner mb msg sender) s = .next t ∧ (t.site c).mail mb = [] ∧ (∀ b, t.byte b = s.byte b) ∧
        (let x := s.slot r
         let y := (x.setG (pr ++ (0 : BitVec 1)) msg.payload).setG (pr ++ (1 : BitVec 1)) (msg.header ||| BitVec.ofNat 64 (mb * 2 ^ 60))
         t.slot r = { y.retire (x.onEast r.place) 1 with status := .ready }) ∧
        ∀ u, slotKey u ≠ slotKey r → t.slot u = s.slot u) ∧
    (s.mailWaits c mb msg = true → c < 2 ^ 13 → msg.header.extractLsb' 0 8 ≠ 0x0A →
      ∃ t, exec (.messageArrival c owner mb msg sender) s = .next t ∧ (t.site c).waiting mb = (s.site c).waiting mb ++ [msg] ∧
        (t.site c).mail mb = (s.site c).mail mb ∧ t.work = s.work ++ [.mailboxDivert c mb])) ∧
  (∀ (s : State) (c mb n : Nat) (before after : List Message) (m : Message), (s.site c).waiting mb = before ++ m :: after →
    (∀ h, h ∈ before → s.noticeHeld c h = true) → s.noticeHeld c m = false → s.loadedOn c = some n → 8 ≤ ((s.site c).mail mb).length →
    exec (.mailboxDivert c mb) s = .next
      ((s.modSite c fun y => { y with mbWait := tset [] y.mbWait mb (before ++ after) }).logItem n (mailItem c mb m))) ∧
  (∀ (s : State) (c mb n : Nat) (x : Context) (i : LogItem), s.loadedOn c = some n → s.ctx n = some x → x.logged c mb = some i →
    ((s.site c).mail mb).length < 8 → (∀ i ∈ x.log, i.delivery = 1 ∨ i.delivery = 5) →
    exec (.arrivalLogMove c mb) s =
      .next (let t := (s.logDrop n i).placeMail c mb (s.loggedMail n i)
        if ((t.site c).mail mb).length < 8 then t.mailFree c mb else t)) ∧
  ∀ (s : State) (c owner mb : Nat) (msg : Message) (r : SlotRef) (e : Sent), s.sentMail c r = some e →
    (s.messageTarget c owner mb msg (some r) = .drop → exec (.messageArrival c owner mb msg (some r)) s = .next
      ((s.sentDone e.id).faultOf e.slot e.ctx { id := e.id, tepc := e.tepc, cause := cRWR, taddr := BitVec.ofNat 64 c, reason := 2 })) ∧
    ∀ n, s.messageTarget c owner mb msg (some r) = .log n →
      exec (.messageArrival c owner mb msg (some r)) s = .next (s.logItem n (mailItem c mb msg))

/-- PUSH appends to a queue with room and parks on a full one; the POP that parked first on an empty queue takes the entry and completes. POP takes the oldest entry,
and parks on an empty queue (R206, R344).
Completes: PUSH, POP. -/
def Obligations.SlotQueues : Prop :=
  (∀ (s : State) (q a : R4) (w : BitVec 2),
    let i : Instr := .push q w a
    let p := placeKey s.cur.place
    s.issues i q = true →
    (8 ≤ ((s.site p).queue w.toNat).length → exec i s = .next (s.begun.parkOn s.cur (.push w.toNat (s.now.getG a)))) ∧
    (((s.site p).queue w.toNat).length < 8 →
      ((s.site p).queue w.toNat ≠ [] ∨ ∀ r ∈ slotsAt p, ∀ d, (s.begun.slot r).status ≠ .parked (.pop w.toNat d)) →
      exec i s = .next (Claims.goOn s i
        (s.begun.modSite p fun y => { y with w := tset [] y.w w.toNat (y.queue w.toNat ++ [s.now.getG a]) }))) ∧
    ∀ (r : SlotRef) (d : R4), (s.site p).queue w.toNat = [] → slotKey r ≠ slotKey s.cur → s.now.status = .ready →
      Claims.firstOf s p r (fun k => ∃ e, k = .pop w.toNat e) → (s.slot r).status = .parked (.pop w.toNat d) →
      exec i s = .next (Claims.goOn s i (s.begun.setSlot r
        (let x := s.slot r
         { (x.setG d (s.now.getG a)).retire (x.onEast r.place) 1 with status := .ready })))) ∧
  ∀ (s : State) (q d : R4) (w : BitVec 3),
    let i : Instr := .pop q w d
    let p := placeKey s.cur.place
    s.issues i q = true → s.now.status = .ready →
    match (s.site p).queue w.toNat with
    | [] => exec i s = .next (s.begun.parkOn s.cur (.pop w.toNat d))
    | v :: rest => ∃ t, exec i s = .next t ∧ t.slot s.cur = s.past i (s.now.setG d v) ∧
        ((∀ r ∈ slotsAt p, ∀ u, (s.slot r).status ≠ .parked (.push w.toNat u)) → (t.site p).queue w.toNat = rest) ∧
        ∀ b, t.byte b = s.byte b

/-- BARA on a legal scope counts one arrival of its slot and lets it travel, as 16 bytes of class 1 to the router of its rectangle's origin
core (the model's choice, log 16); BARW goes on when as many phases have completed as
its slot has arrived at, and parks until then; a scope that is refused, or another than that of the open phase, raises ILL.
An arrival is counted at its core, logged while the context of its slot is swapped out, and dropped when that has ended (log 51, the model's
reading); the last of a phase completes it in every core of its rectangle: the arrivals are done with, and f rises in the slots whose
contexts made theirs. FENCE goes on once earlier relaxed accesses are as
far as its scope asks (R93, R212-R214, R311, R327).
Completes: BARA, BARW, FENCE, BARRIER_ARRIVAL. -/
def Obligations.Barriers : Prop :=
  (∀ (s : State) (q a id : R4) (c : Nat) (w : Word),
    let i : Instr := .bara q a id
    s.cur.place = .mesh c → s.issues i q = true → barScope s.cur s.now id a = some w →
    let y := s.now.setBar id { (s.now.bar id) with a := (s.now.bar id).a + 1, rect := w }
    let sent : BarSent := { core := c, k := s.cur.k, id := id.toNat, rect := w, ctx := s.begun.loadedOn c }
    exec i s = .next (Claims.goOn s i (({ s.begun.setSlot s.cur y with barSends := s.barSends ++ [sent] } : State).route
      c (rectLo w) 1 false 16 (.barrierArrival c s.cur.k id.toNat w)))) ∧
  (∀ (s : State) (q a id : R4) (w : Word),
    let i : Instr := .barw q a id
    s.issues i q = true → barScope s.cur s.now id a = some w →
    if (s.now.bar id).a ≤ (s.now.bar id).f then ∃ t, exec i s = .next t ∧ s.onlySlot t (s.past i s.now)
    else exec i s = .next (s.begun.parkOn s.cur (.barw id.toNat))) ∧
  (∀ (s : State) (q a id : R4), barScope s.cur s.now id a = none →
    (s.issues (.bara q a id) q = true → exec (.bara q a id) s = .next (s.begun.takeTrap s.cur { cause := cILL })) ∧
    (s.issues (.barw q a id) q = true → exec (.barw q a id) s = .next (s.begun.takeTrap s.cur { cause := cILL }))) ∧
  (∀ (s : State) (q a : R4),
    let i : Instr := .fence q a
    s.issues i q = true →
    match scopeOf s.cur s.now (s.now.getG a) true with
    | none => exec i s = .next (s.begun.takeTrap s.cur { cause := cILL })
    | some w => if s.now.drained (scopeReach w) then ∃ t, exec i s = .next t ∧ s.onlySlot t (s.past i s.now)
        else exec i s = .next (s.begun.parkOn s.cur (.drainRelaxed (scopeReach w)))) ∧
  ∀ (s : State) (c k id : Nat) (w : Word) (b : BarSent),
    s.barSends.find? (fun b => b.core == c && b.k == k && b.id == id && b.rect == w) = some b →
    let u : State := { s with barSends := s.barSends.erase b }
    (∀ n, b.ctx = some n → s.loadedOn c = some n →
      let v := u.modSite c fun y => { y with arrived := y.arrived ++ [{ k := k, id := id, rect := w, live := b.live }] }
      (v.phaseFull k id w = false → exec (.barrierArrival c k id w) s = .next v) ∧
      (v.phaseFull k id w = true → ∃ t, exec (.barrierArrival c k id w) s = .next t ∧ (∀ b, t.byte b = s.byte b) ∧
        (∀ d ∈ rectCores w, ∀ e, v.counted d k id w = some e → (t.site d).arrived = (v.site d).arrived.erase e ∧
          let x := s.slot (meshSlot d k)
          t.slot (meshSlot d k) = if e.live then
            { x with bars := tset {} x.bars id { tget {} x.bars id with f := (tget {} x.bars id).f + 1 } } else x) ∧
        ∀ r, (∀ d ∈ rectCores w, slotKey r ≠ slotKey (meshSlot d k)) → t.slot r = s.slot r)) ∧
    (∀ n, b.ctx = some n → s.loadedOn c ≠ some n → (s.ctx n).isSome = true →
      exec (.barrierArrival c k id w) s = .next (u.logItem n
        { delivery := 3, core := c, slot := k, num := id, seq := 0, payload := w.zeroExtend 64, header := 0, live := b.live })) ∧
    ((b.ctx = none ∨ ∃ n, b.ctx = some n ∧ s.loadedOn c ≠ some n ∧ s.ctx n = none) →
      exec (.barrierArrival c k id w) s = .next u)

/-- SEND to a core that is no core id raises ILL; with room in the outbound queue the message stands in it and is on record as
sent, and with none the slot parks. The first message of a queue that is not held back enters the network. SENDT of 240 bytes at
most to a device sends their bytes on the fabric under its tag, once the slot's earlier SENDT to it is answered (R277), or hands them to the I/O die when the device is this part. A cycle
of a router changes routers and packets only, and the queue of what enters there (R197, R198, R203, R270, R358, R359).
Completes: SEND, SENDT, PACKET_HOP. -/
def Obligations.Sending : Prop :=
  (∀ (s : State) (q mb b a : R4) (eos cw : Bool) (tag : BitVec 16),
    let i : Instr := .send q eos mb b a tag cw
    let c := placeKey s.cur.place
    let dest := (s.now.getG a).toNat
    let header := BitVec.ofNat 64 (1 + slotId s.cur % 2 ^ 16 * 2 ^ 8 + tag.toNat * 2 ^ 24 + eos.toNat * 2 ^ 40 + (isCtl s.cur.place).toNat * 2 ^ 41)
    let hop : Instr := .packetHop c 5
    s.issues i q = true →
    (2 ^ 13 ≤ dest → exec i s = .next (s.begun.takeTrap s.cur { cause := cILL })) ∧
    (dest < 2 ^ 13 → s.now.drained (if dieOf s.cur.place = some (dest / 1024) then 0 else 1) = true →
      (8 ≤ (s.site c).outbound.length → exec i s = .next (s.begun.parkOn s.cur .sendFull)) ∧
      ((s.site c).outbound.length < 8 → ∃ t o e, exec i s = .next t ∧ t.slot s.cur = s.past i s.now ∧
        (t.site c).outbound = (s.site c).outbound ++ [o] ∧ o.dst = dest ∧ o.mb = mb.toNat ∧ o.cw = cw ∧
        o.msg = { header := header, payload := s.now.getG b } ∧ o.owner = s.now.owner.toNat ∧
        t.sends = s.sends ++ [e] ∧ e.id = o.id ∧ e.slot = s.cur ∧ e.dst = dest ∧ e.kind = .mail ∧
        t.work = if hop ∈ s.work then s.work else s.work ++ [hop]))) ∧
  (∀ (s : State) (q c b a : R4) (tag : Word),
    let i : Instr := .sendt q c b a tag
    let d := (s.now.getG a).toNat
    let n := (s.now.getG c).toNat
    let self := d = 0 ∨ d = s.iod.devid.toNat % 2 ^ 16
    s.issues i q = true →
    (2 ^ 16 ≤ d ∨ 240 < n ∨ (s.now.getG b).toNat % 8 ≠ 0 → exec i s = .next (s.begun.takeTrap s.cur { cause := cILL })) ∧
    ∀ ps, d < 2 ^ 16 → n ≤ 240 → (s.now.getG b).toNat % 8 = 0 →
      s.begun.places s.cur 0 .load (payloadWants (s.now.getG b).toNat n) = .ok ps →
      (∀ p ∈ ps, p.piece.isSome = true) → s.now.unperformed (piecesOf ps) = false →
      (∀ p ∈ piecesOf ps, s.begun.piecePoisoned p = false ∧ s.begun.foreign p = false) →
      ∃ pay : List Byte, pay.length = n ∧
        (∀ p ∈ piecesOf ps, ∀ j, j < p.n → pay[p.pos + j]? = (s.begun.readOn (dieOf s.cur.place) p)[j]?) ∧
        (self → ∃ u, Claims.onlyAccess s u true false ∧ u.slot s.cur = s.now ∧
          exec i s = .next ((u.route (nodeOf s.cur.place) ioNode 0 false n (.taggedMessage
            { tag := tag.toNat, owner := s.now.owner.toNat, device := 0, sender := slotId s.cur, payload := pay })).parkOn s.cur .sendt)) ∧
        (¬ self → (s.iod.route d).isSome = true → s.begun.sendtOut s.cur d = true →
          ∃ u, Claims.onlyAccess s u true false ∧ u.slot s.cur = s.now ∧ exec i s = .next (u.parkOn s.cur (.sendHeld d))) ∧
        ∀ port, ¬ self → s.iod.route d = some port → s.iod.portUp port = true → s.begun.sendtOut s.cur d = false →
          ∃ t w, exec i s = .next t ∧ t.slot s.cur = s.past i s.now ∧ t.iod.sent = s.iod.sent ++ [w] ∧ w.port = port ∧
            w.packet.dst = d ∧ w.packet.op = 6 ∧ w.packet.tag = tag.toNat ∧ w.packet.owner = s.now.owner.toNat ∧
            w.packet.payload = pay) ∧
  (∀ (s : State) (c : Nat) (o : OutMsg) (rest : List OutMsg) (e : Sent), (s.router c).inject = [] →
    (s.site c).outbound = o :: rest → s.heldBack o.id = false → s.sends.find? (fun e => e.id == o.id) = some e →
    (∀ p ∈ rest, p.id ≠ o.id) →
    let u := (s.modSite c fun y => { y with outbound := rest }).route (nodeOfKey c) o.dst 0 o.cw 16
      (.messageArrival o.dst o.owner o.mb o.msg (some e.slot))
    exec (.packetHop c 5) s = .next (if rest = [] then u else u.postOnce (.packetHop c 5))) ∧
  ∀ (s : State) (n port : Nat), ∃ t, exec (.packetHop n port) s = .next t ∧
    t = { s with routers := t.routers, packets := t.packets, sites := t.sites, work := t.work, nextId := t.nextId } ∧
    (port ≠ 5 → t.sites = s.sites) ∧ ∀ p, t.site p = { s.site p with outbound := (t.site p).outbound }

namespace Sys2Proof.Claims
open Sys2Proof.Machine

/-- Events of the networks alone: flits that wait at a router. -/
def hopsOnly (l : List Instr) : Prop := ∀ h ∈ l, ∃ n, h = .packetHop n 5

/-- Nothing of memory or of the slots changed, and no entry but that of one window of one core did. -/
def onlyEntry (s t : State) (c w : Nat) : Prop :=
  (∀ b, t.byte b = s.byte b) ∧ (∀ r, t.slot r = s.slot r) ∧ ∀ c' w', (c', w') ≠ (c, w) → t.entry c' w' = s.entry c' w'

end Sys2Proof.Claims

/-- ATCH raises BANK for a bank of another die and a window that is not empty; else the window claims the bank and the claim
travels to its site. BQRY reads an entry in the layout of R102. DTCH empties its window in its mode: an attached bank drains,
a claim is withdrawn, and an empty window only takes the mode; a window that is being handed over makes it wait (R102, R107, R109,
R110, R115).
Completes: ATCH, DTCH, BQRY. -/
def Obligations.AttachAndDetach : Prop :=
  (∀ (s : State) (q a w : R4) (c : Nat),
    let i : Instr := .atch q a w
    let b := s.now.getG a
    let e := s.entry c w.toNat
    s.cur.place = .mesh c → s.issues i q = true →
    if 2 ^ 16 ≤ b.toNat ∨ b.toNat / 1024 % 8 ≠ c / 1024 ∨ e.att = true ∨ e.clm = true then
      exec i s = .next (s.begun.takeTrap s.cur { cause := cBANK, taddr := b })
    else ∃ t, exec i s = .next t ∧ t.slot s.cur = s.past i s.now ∧
      t.entry c w.toNat = { e with clm := true, bank := b.toNat, rsn := 0 } ∧
      (∀ c' w', (c', w') ≠ (c, w.toNat) → t.entry c' w' = s.entry c' w') ∧
      (Instr.claimArrival b.toNat c w.toNat s.now.owner.toNat ∈ t.work ∨
        ∃ p ∈ t.packets, p.dst = b.toNat % 2 ^ 13 ∧ p.ev = some (.claimArrival b.toNat c w.toNat s.now.owner.toNat))) ∧
  (∀ (s : State) (q w d : R4),
    let i : Instr := .bqry q w d
    let e := s.entry (placeKey s.cur.place) w.toNat
    s.issues i q = true → e.bank < 2 ^ 16 →
    ∃ t v, exec i s = .next t ∧ s.onlySlot t (s.past i (s.now.setG d v)) ∧ v.extractLsb' 0 16 = BitVec.ofNat 16 e.bank ∧
      v.getLsbD 16 = e.att ∧ v.getLsbD 17 = e.clm ∧ v.getLsbD 18 = e.rd ∧ v.getLsbD 19 = e.wr ∧ v.getLsbD 20 = e.fault ∧
      v.getLsbD 21 = e.land ∧ v.extractLsb' 22 3 = e.rsn ∧ v.extractLsb' 25 7 = 0 ∧ v.extractLsb' 32 16 = e.owner ∧
      v.extractLsb' 48 16 = e.gen) ∧
  ∀ (s : State) (q w : R4) (fault : Bool),
    let i : Instr := .dtch q fault w
    let c := placeKey s.cur.place
    let e := s.entry c w.toNat
    s.issues i q = true →
    if s.begun.handing c w.toNat then exec i s = .next (s.begun.parkOn s.cur (.handing c w.toNat))
    else ∃ t, exec i s = .next t ∧ t.slot s.cur = s.past i s.now ∧ (∀ b, t.byte b = s.byte b) ∧
      (∀ c' w', (c', w') ≠ (c, w.toNat) → t.entry c' w' = s.entry c' w') ∧
      (if e.att then t.entry c w.toNat = { fault := fault, rsn := e.rsn } ∧ (t.bank e.bank).drain = some .dtch ∧
         t.work = s.work ++ [.dtchDrainEnd e.bank]
       else if e.clm then t.entry c w.toNat = { fault := fault, rsn := e.rsn } ∧
         ∀ k ∈ (t.bank e.bank).queue ++ (t.bank e.bank).heldClaims, ¬ (k.core = c ∧ k.w = w.toNat ∧ k.ctx = (s.site c).launch)
       else t.entry c w.toNat = { e with fault := fault })

/-- A claim that was withdrawn on its way does nothing. Any other takes the first row of R108 that applies: held while a detach of
the bank drains, refused with 7, 4, 5 or 1, granted on a detached bank, queued behind fewer than eight, refused with 6. A grant attaches the bank to the window with both
rights, its owner and the next generation, with LAND while the bank is fallow; a refusal leaves the window empty in fault mode
with the reason (R108, R121; that a bank whose words are being cleared refuses with 4 is the reading of log 54).
Completes: CLAIM_ARRIVAL. -/
def Obligations.ClaimRows : Prop :=
  ∀ (s : State) (b c w owner n : Nat),
    let k := s.bank b
    let e := s.entry c w
    (k.withdrawn.contains (c, w, owner) = true → exec (.claimArrival b c w owner) s =
      .next (s.setBank b { k with withdrawn := k.withdrawn.erase (c, w, owner) })) ∧
    (k.withdrawn.contains (c, w, owner) = false → s.claimant b c w owner = some n → s.loadedOn c = some n → (s.tst n).ctx.isSome = true → e.clm = true →
    let refused (rsn : BitVec 3) : Prop := ∃ t, exec (.claimArrival b c w owner) s = .next t ∧ Claims.onlyEntry s t c w ∧
      t.entry c w = { fault := true, rsn := rsn } ∧ t.banks = s.banks
    if k.drain = some .dtch then ∃ t, exec (.claimArrival b c w owner) s = .next t ∧ t.sites = s.sites ∧
      (t.bank b).heldClaims = k.heldClaims ++ [{ core := c, w := w, owner := owner, ctx := some n }]
    else if s.dead (b % 2 ^ 13) then refused 7
    else if k.clearing = true ∨ k.owner.toNat ≠ owner then refused 4
    else if k.revoked then refused 5
    else if s.inPaddock b c = false then refused 1
    else if k.att = false ∧ k.reserved = none ∧ k.drain = none then
      ∃ t, exec (.claimArrival b c w owner) s = .next t ∧ Claims.onlyEntry s t c w ∧
        t.entry c w =
          { bank := b, att := true, rd := true, wr := true, land := k.fallow, owner := k.owner, gen := k.gen + 1, rsn := e.rsn } ∧
        (t.bank b).att = true ∧ (t.bank b).core = some c ∧ (t.bank b).win = w ∧ (t.bank b).gen = k.gen + 1
    else if k.queue.length < 8 then ∃ t, exec (.claimArrival b c w owner) s = .next t ∧ t.sites = s.sites ∧
      (t.bank b).queue = k.queue ++ [{ core := c, w := w, owner := owner, ctx := some n }]
    else refused 6)

/-- A drained bank is granted to its oldest queued claim, else detached into retention entry; entry ends fallow, and a landing
that waits starts its exit; the exit's end clears FALLOW and LAND. Entry and exit re-encode the bank's words (R108, R109, R121,
R122).
Completes: DTCH_DRAIN_END, RETENTION_ENTRY_END, RETENTION_EXIT_END. -/
def Obligations.DrainAndRetention : Prop :=
  (∀ (s : State) (b : Nat),
    let k := s.bank b
    k.drain.isSome = true →
    (s.bankBusy b (k.core.getD (bankSite b)) true = true → exec (.dtchDrainEnd b) s = .next (s.post (.dtchDrainEnd b))) ∧
    (s.bankBusy b (k.core.getD (bankSite b)) true = false → k.queue = [] → k.heldClaims = [] →
      ∃ t, exec (.dtchDrainEnd b) s = .next t ∧ t.sites = (s.unholdBank (k.core.getD (bankSite b)) b).sites ∧
        t.work = (if k.fallow then s.work else s.work ++ [.retentionEntryEnd b]) ∧
        t.bank b = { k with att := false, drain := none, reserved := none, fallow := true, entering := k.entering || !k.fallow }) ∧
    ∀ c rest n, s.bankBusy b (k.core.getD (bankSite b)) true = false → k.queue = c :: rest → k.heldClaims = [] →
      s.dead (b % 2 ^ 13) = false → c.ctx = some n → s.loadedOn c.core = some n → (s.tst n).ctx.isSome = true →
      ∃ t, exec (.dtchDrainEnd b) s = .next t ∧ (t.bank b).queue = rest ∧ (t.bank b).att = true ∧ (t.bank b).core = some c.core ∧
        t.entry c.core c.w =
          { bank := b, att := true, rd := true, wr := true, land := k.fallow, owner := k.owner, gen := k.gen + 1, rsn := (s.entry c.core c.w).rsn }) ∧
  (∀ (s : State) (b : Nat), (s.bank b).entering = true →
    let u := s.reencode b
    let v := u.setBank b { u.bank b with entering := false }
    exec (.retentionEntryEnd b) s = .next (if (s.bank b).landing.isSome then v.post (.retentionExitEnd b) else v)) ∧
  ∀ (s : State) (b : Nat) (c : Claim), (s.bank b).landing = some c → (s.bank b).entering = false → c.image = none →
    (s.entry c.core c.w).att = true → (s.entry c.core c.w).bank = b →
    ∃ t, exec (.retentionExitEnd b) s = .next t ∧ Claims.onlyEntry s t c.core c.w ∧
      t.entry c.core c.w = { s.entry c.core c.w with land := false } ∧
      t.bank b = { (s.reencode b).bank b with fallow := false, landing := none }

/-- HOVR, with or without a notice, raises ILL for a bad target and BANK for a window without a bank, and else parks for the
swap (R111, R112). The swap waits for the drain; then it refuses with the first reason of R113 and changes nothing but HSTAT
and q15, or moves the bank to the target window with the source's rights and the next generation, empties the source window
in its mode, posts the notice, sends the hand-over in class 1 to another router, and sets q15; for a swapped-out context the bank is held fallow (R112-R114, R117, R271; that
a target at a site marked unusable counts as outside the paddock is the choice of log 66, and that the notice's two words travel as the part's own mail that of log 16).
Completes: HOVR and HOVR with a notice (which park until HOVR_SWAP completes them), HOVR_SWAP. -/
def Obligations.HandOver : Prop :=
  (∀ (s : State) (i : Instr) (q mb b a w : R4) (fault noted : Bool),
    i = (if noted then .hovrNotice q mb fault b a w else .hovr q fault b a w) →
    let c := placeKey s.cur.place
    let t := s.now.getG a
    s.issues i q = true →
    if t.extractLsb' 13 3 ≠ 0 ∨ t.extractLsb' 20 44 ≠ 0 then exec i s = .next (s.begun.takeTrap s.cur { cause := cILL })
    else if s.begun.handing c w.toNat then exec i s = .next (s.begun.parkOn s.cur (.handing c w.toNat))
    else if (s.entry c w.toNat).att = false then
      exec i s = .next (s.begun.takeTrap s.cur { cause := cBANK, taddr := w.zeroExtend 64 })
    else exec i s = .next (((s.begun.holdReads c w.toNat).post (.hovrSwap s.cur)).parkOn s.cur
      (.hovr w.toNat t fault (if noted then some (mb.toNat, s.now.getG b) else none)))) ∧
  ∀ (s : State) (r : SlotRef) (c w : Nat) (t : Dword) (fault : Bool) (notice : Option (Nat × Dword)),
    r.place = .mesh c → (s.slot r).status = .parked (.hovr w t fault notice) →
    let e := s.entry c w
    let tc := (t.extractLsb' 0 13).toNat
    let tw := (t.extractLsb' 16 4).toNat
    let owner := (s.slot r).owner.toNat
    let code := s.handCode c e.bank tc tw owner
    let gen := (s.bank e.bank).gen + 1
    let posted (u : State) : Prop := ∀ mb pay, notice = some (mb, pay) →
      let note : Message := { header := BitVec.ofNat 64 (3 + slotId r % 2 ^ 16 * 2 ^ 8 + e.bank * 2 ^ 24 + gen.toNat * 2 ^ 40 + tw * 2 ^ 56), payload := pay }
      .messageArrival tc owner mb note none ∈ u.work ∧
        ∃ m, u.sends = s.sends ++ [m] ∧ m.slot = r ∧ m.dst = tc ∧ m.kind = .notice mb note
    let travels (u : State) : Prop := c ≠ tc → ∃ p ∈ u.packets, p.id = s.nextId + 1 ∧ p.src = c ∧ p.dst = tc ∧ p.cls = 1
    (s.bankBusy e.bank c false = true → exec (.hovrSwap r) s = .next (s.post (.hovrSwap r))) ∧
    (s.bankBusy e.bank c false = false → code ≠ 0 →
      exec (.hovrSwap r) s = .next ((s.unholdReads c w).complete r 1 fun x => { x.setQ 15 false with hstat := BitVec.ofNat 3 code })) ∧
    (s.bankBusy e.bank c false = false → code = 0 → s.target tc owner true = .site → (c, w) ≠ (tc, tw) →
      ∃ u, exec (.hovrSwap r) s = .next u ∧ u.entry c w = { fault := fault, rsn := e.rsn } ∧
        u.entry tc tw =
          { bank := e.bank, att := true, rd := e.rd, wr := e.wr, owner := BitVec.ofNat 16 owner, gen := gen, rsn := (s.entry tc tw).rsn } ∧
        (u.bank e.bank).core = some tc ∧ (u.bank e.bank).win = tw ∧ (u.bank e.bank).gen = gen ∧
        posted u ∧ travels u ∧
        (notice = none → u.sends = s.sends ∧ ∃ hops, u.work = s.work ++ hops ∧ Claims.hopsOnly hops) ∧
        (u.slot r).status = .ready ∧ (u.slot r).getQ 15 = true ∧ ∀ b, u.byte b = s.byte b) ∧
    ∀ n, s.bankBusy e.bank c false = false → code = 0 → s.target tc owner true = .log n →
      ∃ u, exec (.hovrSwap r) s = .next u ∧ u.entry c w = { fault := fault, rsn := e.rsn } ∧ (u.bank e.bank).att = false ∧
        (u.bank e.bank).fallow = true ∧
        (u.bank e.bank).reserved = some { ctx := n, core := tc, w := tw, rd := e.rd, wr := e.wr } ∧ posted u ∧ travels u ∧
        (u.slot r).status = .ready ∧ (u.slot r).getQ 15 = true

/-- Revocation: once its banks are drained and no atomic of its slots stands at the head of a queue, every window of the core that held
a bank is empty in fault mode, its bank is detached, revoked and enters retention, the claims on it are refused with 5, and a record of
each and a summary with the windows' mask go to mb13 of the origin. BCMD ends with the
status of R124: 2 for a bank that is not free, 3 for a window that is not empty, 4 beyond the paddock or another owner, 5 for
another OP; ATTACH lands the bank, UNREVOKE clears the mark, SETOWNER refuses its claims with 4 and clears the words. Each microsecond
an attached bank counts for its launch's account, and bits may fail (R118, R119, R122, R124, R125, R282, R296, R303; that one status
goes before another is the choice of log 67, that a bank of another die or of a dead site counts
as not free the reading of log 30, and that a revoked window's reason is 0 that of log 54).
Completes: REVOCATION_DETACH, the four BCMD events, SETOWNER_DONE, BANK_MICROSECOND_SAMPLE. -/
def Obligations.RevocationAndCommands : Prop :=
  (∀ (s : State) (c : Nat) (v : Revoking), (s.site c).revoking = some v →
    (∀ r ∈ coreSlots c, (s.slot r).atomicHead = false) →
    (∀ w ∈ s.attachedWindows c, s.bankBusy (s.entry c w).bank c false = false ∧ (s.entry c w).clm = false ∧
      ∀ w' ∈ s.attachedWindows c, (s.entry c w').bank = (s.entry c w).bank → w' = w) →
    ∃ t, exec (.revocationDetach c) s = .next t ∧ (t.site c).revoking = none ∧ (t.site c).revoked = true ∧
      (∀ k, t.byte k = s.byte k) ∧ (∀ w, w < 16 → (s.entry c w).att = false → (t.entry c w).att = false) ∧
      (∀ w ∈ s.attachedWindows c,
        let k := s.bank (s.entry c w).bank
        let u := t.bank (s.entry c w).bank
        t.entry c w = { fault := true } ∧ u.att = false ∧ u.revoked = true ∧ u.fallow = true ∧ u.owner = k.owner ∧ u.queue = [] ∧
        u.heldClaims = [] ∧
        (∀ m ∈ k.queue ++ k.heldClaims, s.claimTarget m = .site → (s.entry m.core m.w).clm = true →
          t.entry m.core m.w = { fault := true, rsn := 5 }) ∧
        .retentionEntryEnd (s.entry c w).bank ∈ t.work ∧
        .messageArrival v.origin v.owner 13 { header := BitVec.ofNat 64 (4 + slotId v.slot % 2 ^ 16 * 2 ^ 8), payload := BitVec.ofNat 64 ((s.entry c w).bank + w * 2 ^ 16) } none ∈ t.work) ∧
      .messageArrival v.origin v.owner 13 { header := BitVec.ofNat 64 (5 + slotId v.slot % 2 ^ 16 * 2 ^ 8), payload := BitVec.ofNat 64 (v.tcause + ((s.attachedWindows c).map (2 ^ ·)).sum * 2 ^ 8) } none ∈ t.work) ∧
  (∀ (s : State) (d : Nat) (v : Dword),
    let b := (v.extractLsb' 0 16).toNat
    let c := (v.extractLsb' 16 13).toNat
    let w := (v.extractLsb' 32 4).toNat
    let e := s.entry c w
    let ends (i : Instr) (st : BitVec 3) : Prop := ∃ t, exec i s = .next t ∧ (t.die d).bcmd.extractLsb' 57 3 = st ∧
      t = { s with dies := t.dies } ∧ ∀ d', d' ≠ d → t.die d' = s.die d'
    ends (.bcmdRefused d v) 5 ∧
    (s.bankFree d b = false → ends (.bcmdAttach d v) 2 ∧ ends (.bcmdSetowner d v) 2 ∧ ends (.bcmdUnrevoke d v) 2) ∧
    (s.bankFree d b = true →
      (e.att = true ∨ e.clm = true → ends (.bcmdAttach d v) 3) ∧
      (e.att = false → e.clm = false → s.inPaddock b c = false ∨ s.target c (s.bank b).owner.toNat true ≠ .site →
        ends (.bcmdAttach d v) 4) ∧
      (e.att = false → e.clm = false → s.inPaddock b c = true → s.target c (s.bank b).owner.toNat true = .site →
        ∃ t, exec (.bcmdAttach d v) s = .next t ∧ (t.die d).bcmd.extractLsb' 57 3 = 0 ∧ (t.bank b).revoked = false ∧
          (t.bank b).att = true ∧ t.entry c w = { bank := b, att := true, rd := v.getLsbD 39, wr := v.getLsbD 40, land := (s.bank b).fallow, owner := (s.bank b).owner, gen := (s.bank b).gen + 1, rsn := e.rsn }) ∧
      (∃ t, exec (.bcmdUnrevoke d v) s = .next t ∧ (t.die d).bcmd.extractLsb' 57 3 = 0 ∧
        t.bank b = { s.bank b with revoked := false } ∧ ∀ b', b' ≠ b → t.bank b' = s.bank b') ∧
      ∃ t, exec (.bcmdSetowner d v) s = .next t ∧ (t.bank b).clearing = true ∧ (t.bank b).queue = [] ∧ (t.bank b).heldClaims = [] ∧
        t.work = s.work ++ [.setownerDone b] ∧
        ∀ m ∈ (s.bank b).queue ++ (s.bank b).heldClaims, s.claimTarget m = .site → (s.entry m.core m.w).clm = true →
          t.entry m.core m.w = { fault := true, rsn := 4 })) ∧
  (∀ (s : State) (b : Nat), (s.bank b).clearing = true →
    ∃ t, exec (.setownerDone b) s = .next t ∧
      t.bank b = { s.bank b with owner := (s.die (coreDie (bankSite b))).bcmd.extractLsb' 41 16, revoked := false, fallow := true, clearing := false } ∧
      (t.die (coreDie (bankSite b))).bcmd.extractLsb' 57 3 = 0 ∧
      ∀ k, t.byte k = if bankKey b 0 ≤ k ∧ k < bankKey b 0 + 2 ^ 16 then 0 else s.byte k) ∧
  (∀ (s : State) (a : Nat),
    let counted (e : Nat × Bank) : Bool := e.2.att && match s.loadedOn (e.2.core.getD (bankSite e.1)) with
      | some n => (s.tst n).desc.any fun x => x.acct.toNat == a
      | none => false
    ∃ t, exec .bankMicrosecondSample s = .next t ∧
      tget 0 t.iod.accounts (8 * a + 7) = tget 0 s.iod.accounts (8 * a + 7) + BitVec.ofNat 64 (s.banks.countP counted)) ∧
  ∀ s : State, ∃ t, exec .bankMicrosecondSample s = .next t ∧
    t = { s with iod := { s.iod with accounts := t.iod.accounts }, wrong := t.wrong, poison := t.poison, draws := s.draws + 1 } ∧
    ∀ i, i % 8 ≠ 7 → tget 0 t.iod.accounts i = tget 0 s.iod.accounts i

namespace Sys2Proof.Claims
open Sys2Proof.Machine

/-- Bits that SETC stores in the control registers software may write, by number (R71, R72, R260, R287, R290). -/
def cregMask (r : SlotRef) (n : Nat) : Option Dword :=
  if 0x010 ≤ n ∧ n ≤ 0x012 then some 0xF
  else if n = 0x013 ∨ n = 0x014 then some 0xFFFFF
  else if n = 0x015 ∨ n = 0x019 then some 7
  else if n = 0x016 ∨ n = 0x018 then some 0x3F
  else if n = 0x017 then some 3
  else if n = 0x01A ∨ n = 0x022 then some (-1)
  else if n = 0x020 then some 0xFFFC
  else if n = 0x021 then some 0xFF
  else if n = 0x023 then some 0xFFFF
  else if n = 0x024 then some 0xFFFF00007FFFFFFF
  else if n = 0x025 then some 0x7F
  else if n = 0x026 ∨ n = 0x027 then some 0xFFC0
  else if isCtl r.place then
    if n = 0x003 then some 0xFFFF
    else if n = 0x040 ∨ n = 0x042 then some 7
    else if n = 0x041 ∨ n = 0x043 then some 0x0000FFFFFFFF0000
    else none
  else none

/-- What a trap record holds (R260, R261): bits of TINFO by name. -/
def tinfoIs (w : Dword) (x : Slot) (t : TrapInfo) (inh : Bool) : Prop :=
  w.getLsbD 0 = t.async ∧ w.getLsbD 1 = x.streamed ∧ w.extractLsb' 11 5 = BitVec.ofNat 5 t.flg ∧
  w.extractLsb' 16 11 = BitVec.ofNat 11 t.code ∧ w.extractLsb' 27 2 = BitVec.ofNat 2 t.reason ∧ w.getLsbD 29 = t.more ∧
  w.getLsbD 30 = inh ∧ w.extractLsb' 31 17 = 0 ∧ w.extractLsb' 48 16 = (if t.async then x.at else 0) ∧
  (x.rpt = none → w.extractLsb' 2 9 = 0) ∧
  ∀ f, x.rpt = some f → f.missing = 0 → w.getLsbD 2 = true ∧ w.extractLsb' 3 8 = BitVec.ofNat 8 f.j

/-- The record of a benched slot as a message (R263, R291). -/
def benchedAs (m : Message) (x : Slot) (t : TrapInfo) (id : Nat) (cc : Bool) : Prop :=
  m.payload = t.taddr ∧ m.header.extractLsb' 0 8 = 9 ∧ m.header.extractLsb' 8 16 = BitVec.ofNat 16 id ∧
  m.header.extractLsb' 24 8 = BitVec.ofNat 8 t.cause ∧ m.header.extractLsb' 32 16 = (if t.async then t.tepc else x.at) ∧
  m.header.getLsbD 48 = cc ∧ m.header.extractLsb' 49 15 = 0

end Sys2Proof.Claims

/-- SETC stores the bits of a register that software may write and changes no other control register; GETC reads what a
register holds. SETC of another number raises PRIV for ACCT in a mesh core and else
ILL (in a control core too, where SLOT, RECT, MODE and ACCT are among them: the reading of log 27); GETC of a number that is not listed
raises ILL; a method reaches RND and FLAGS only. g0 reads zero, q0 true and m0 all ones, and none takes a write. SETS loads a descriptor by its index; an index above
127 or a malformed descriptor raises SEGV with the index (R63, R70-R72, R129, R219, R287, R290, R328, R360).
Completes: SETC, GETC, SETS. -/
def Obligations.SpecialRegisters : Prop :=
  (∀ (s : State) (q a : R4) (n : BitVec 11) (m : Dword),
    s.issues (.setc q n a) q = true → (isCarousel s.cur.place = true → methodReg n.toNat = true) →
    Claims.cregMask s.cur n.toNat = some m →
    ∃ t, exec (.setc q n a) s = .next t ∧ s.onlySlot t (t.slot s.cur) ∧
      (t.slot s.cur).creg s.cur n.toNat = some (s.now.getG a &&& m) ∧
      (∀ k, k ≠ n.toNat → (t.slot s.cur).creg s.cur k = s.now.creg s.cur k) ∧
      (t.slot s.cur).g = s.now.g ∧ (t.slot s.cur).v = s.now.v ∧ (t.slot s.cur).m = s.now.m ∧ (t.slot s.cur).q = s.now.q ∧
      (t.slot s.cur).segs = s.now.segs) ∧
  (∀ (s : State) (q a : R4) (n : BitVec 11),
    s.issues (.setc q n a) q = true → isCarousel s.cur.place = false → Claims.cregMask s.cur n.toNat = none →
    exec (.setc q n a) s = .next (s.begun.takeTrap s.cur { cause := if isMesh s.cur.place ∧ n.toNat = 0x030 then cPRIV else cILL })) ∧
  (∀ (s : State) (q d : R4) (n : BitVec 11) (v : Dword),
    s.issues (.getc q n d) q = true → (isCarousel s.cur.place = true → methodReg n.toNat = true) →
    s.now.creg s.cur n.toNat = some v →
    ∃ t, exec (.getc q n d) s = .next t ∧ s.onlySlot t (s.past (.getc q n d) (s.now.setG d v))) ∧
  (∀ (s : State) (q d : R4) (n : BitVec 11),
    s.issues (.getc q n d) q = true → isCarousel s.cur.place = false → s.now.creg s.cur n.toNat = none →
    exec (.getc q n d) s = .next (s.begun.takeTrap s.cur { cause := cILL })) ∧
  (∀ (s : State) (q a d : R4) (n : BitVec 11), isCarousel s.cur.place = true → n.toNat ≠ 0x017 → n.toNat ≠ 0x018 →
    (s.issues (.setc q n a) q = true → exec (.setc q n a) s = .next (s.begun.takeTrap s.cur { cause := cPRIV })) ∧
    (s.issues (.getc q n d) q = true → exec (.getc q n d) s = .next (s.begun.takeTrap s.cur { cause := cPRIV }))) ∧
  (∀ (x : Slot) (v w : Dword) (b : Bool), x.getG 0 = 0 ∧ x.setG 0 v = x ∧ x.getM 0 = -1 ∧ x.setM 0 w = x ∧ x.getQ 0 = true ∧
    x.setQ 0 b = x) ∧
  ∀ (s : State) (q a : R4) (imm : BitVec 11) (sn : BitVec 3),
    let i : Instr := .sets q imm a sn
    let k := (s.now.getG a).toNat + imm.toNat
    let d := s.descriptor (placeKey s.cur.place) k
    s.issues i q = true →
    if 127 < k ∨ descBad d (isMesh s.cur.place) = true then
      exec i s = .next (s.begun.takeTrap s.cur { cause := cSEGV, taddr := BitVec.ofNat 64 k })
    else ∃ t, exec i s = .next t ∧ s.onlySlot t (s.past i (s.now.setS sn d))

/-- Taking a trap. A local-mode slot of a mesh core with a handler that is not inhibited goes on at TVEC with INH set and the
record in TCAUSE, TADDR, TEPC and TINFO; a slot of a control core also saves its fetch source and fetches locally. Nothing else of the
slot changes but the abandoned frame and prefix. A mesh slot with no handler, inhibited or streamed, is benched with its record. No rule
says the following three of benching, and the model reads them so: the slot gives up its reservation, whose word is granted on when it
held it (log 26, DEDUCED); it releases the position it had pinned (log 97, DEDUCED); and
a benched spawned context's arrivals count on (log 51). A spawned context is discarded but
for its outstanding stores, what it has sent reports to no later context of its slot, and its slot serves the ready queue. Its record is posted to mb13 of its origin core
with those of the core's other slots, in slot order, when the rotation ends, and with TEN.REVOKE a revocation is due then; while the
core's context is being pre-empted both wait for the restore. A control core's slot with no handler or inhibited becomes free, and its
record goes to Penvis and to mb13 of CC0 (R62, R259-R263, R266, R290, R291, R349, R358; that records leave at the end of the
rotation is the reading of log 3). -/
def Obligations.TrapEntry : Prop :=
  (∀ (s : State) (t : TrapInfo) (r : SlotRef),
    let x := s.slot r
    let save (y : Slot) : Slot := { y with tcfs := x.cfs, tcfb := x.cfb, cfs := 0 }
    isCarousel r.place = false → (isMesh r.place = true → x.streamed = false) → x.tvec ≠ 0 → x.tinfo.getLsbD 30 = false →
    ∃ w : Dword, Claims.tinfoIs w x t true ∧
      let y : Slot :=
        { x with status := .ready, pc := x.tvec, pre := none, rpt := none, since := 0, stage := .fresh, tcause := BitVec.ofNat 8 t.cause,
                 taddr := t.taddr, tepc := if t.async then t.tepc else x.at, tinfo := w }
      s.takeTrap r t = s.setSlot r (if isCtl r.place then save y else y)) ∧
  (∀ (s : State) (t : TrapInfo) (c k : Nat),
    let r := meshSlot c k
    let x := s.slot r
    let late := x.ten.getLsbD 6 && s.stopping c
    let u := s.takeTrap r t
    (x.streamed = true ∨ x.tvec = 0 ∨ x.tinfo.getLsbD 30 = true) →
    ∃ (m : Message) (w : Dword), Claims.tinfoIs w x t (x.tinfo.getLsbD 30) ∧ Claims.benchedAs m x t (slotId r) false ∧
      let y : Slot :=
        { x with status := .benched, pre := none, rpt := none, since := 0, stage := .fresh, tcause := BitVec.ofNat 8 t.cause,
                 taddr := t.taddr, tepc := if t.async then t.tepc else x.at, tinfo := w, resv := none }
      let b : BenchRec := { k := k, origin := originOf x.rect, owner := x.owner.toNat, msg := m }
      u.slot r = (if x.spawned then (if late then y else { relaxed := x.relaxed.filter (·.store) })
        else { y with out := x.out ++ x.held, held := [], hold := 0 }) ∧
      (∀ r', slotKey r' ≠ slotKey r → u.slot r' = s.slot r') ∧ (∀ a, u.byte a = s.byte a) ∧
      (∀ v, x.resv = some v → tget [] u.resv v.key = (tget [] s.resv v.key).filter (· ≠ r) ∧
        (v.held = true → .reservationGrant v.key ∈ u.work)) ∧
      (∀ o p, x.pin = some (o, p) → (u.obj o).pins = (s.obj o).pins.erase p) ∧
      (late = true → u.sites = s.sites ∧ ∀ n z, (s.site c).launch = some n → s.ctx n = some z →
        u.ctx n = some { z with pendingRevoke := z.pendingRevoke ++ [r] }) ∧
      (late = false → b ∈ (u.site c).records ∧ (∀ b' ∈ (s.site c).records, b' ∈ (u.site c).records) ∧
        (u.site c).revokeDue = (if x.ten.getLsbD 6 && (s.site c).revokeDue.isNone then
          some { slot := r, tcause := (BitVec.ofNat 8 t.cause).toNat, origin := originOf x.rect, owner := x.owner.toNat }
          else (s.site c).revokeDue) ∧
        (x.spawned = true → .spawnServe (coreDie c) ∈ u.work ∧ (∀ e ∈ u.barSends, e.core = c → e.k = k → e.live = false) ∧
          ∀ e ∈ u.sends, e.slot = r → e.ctx = nobody))) ∧
  (∀ (s : State) (t : TrapInfo) (sock n k : Nat),
    let r : SlotRef := { place := .ctl sock n, k := k }
    let x := s.slot r
    x.tvec = 0 ∨ x.tinfo.getLsbD 30 = true →
    ∃ (m : Message) (w : Dword), Claims.tinfoIs w x t (x.tinfo.getLsbD 30) ∧ Claims.benchedAs m x t (slotId r) true ∧
      let u := s.takeTrap r t
      u.slot r = { x with status := .free, pre := none, rpt := none, since := 0, stage := .fresh, tcause := BitVec.ofNat 8 t.cause,
                          taddr := t.taddr, tepc := if t.async then t.tepc else x.at, tinfo := w, tcfs := x.cfs, tcfb := x.cfb, cfs := 0 } ∧
      (∀ r', slotKey r' ≠ slotKey r → u.slot r' = s.slot r') ∧ (∀ a, u.byte a = s.byte a) ∧
      u.iod.mgmt = s.iod.mgmt ++ [.bench m] ∧ .messageArrival (placeKey (.ctl sock 0)) 0 13 m none ∈ u.work) ∧
  ∀ (s : State) (c : Nat), (s.site c).records.Pairwise (fun a b => a.k ≤ b.k) →
    ((s.postRecords c).site c).records = [] ∧
    (s.postRecords c).work.filter (fun e => match e with | .messageArrival .. => true | _ => false) =
      s.work.filter (fun e => match e with | .messageArrival .. => true | _ => false) ++
        (s.site c).records.map (fun b => .messageArrival b.origin b.owner 13 b.msg none) ∧
    ∀ b : BenchRec, (insertRecord b (s.site c).records).Pairwise (fun a b => a.k ≤ b.k)

/-- TIME parks for the I/O die's reply and then writes it; the reply is the count, which has not gone back, and the socket's
TCAL, not below the slot's last result. By how much the count has moved on is the model's choice (log 6). A TLB miss is walked:
a leaf enters the TLB and the slot goes on, a fault parks it, and a malformed entry makes its next issue raise SEGV. TLBI waits
for every die, each of which removes the entries it names. WAKE ends a page-fault park, with SEGV to come when it says FAIL. A
read of PFQV pops a record and lets a waiting request in. MIGC sets MIG and takes the page's translations away, then copies the
page, writes the new entry and takes the translations away again; a command block or an entry outside DRAM ends it with STATUS 3 by the
choice of log 29 (R135, R136, R139-R143, R279, R366, R367, R385).
Completes: TIME (at its issue after the reply), TIME_REQUEST, TLB_WALK, TLBI (at its issue after the acknowledgements), TLBI_DIE_ACK, WAKE, PFQV_READ, MIGRATION_GO, MIGRATION_END. -/
def Obligations.TimeAndTranslation : Prop :=
  (∀ (s : State) (q d : R4),
    let i : Instr := .time q d
    s.issues i q = true →
    match s.now.stage with
    | .granted m => ∃ t, exec i s = .next t ∧ s.onlySlot t (s.past i (s.now.setG d m))
    | _ => exec i s = .next ((s.begun.route (nodeOf s.cur.place) ioNode 0 false 0 (.timeRequest s.cur)).parkOn s.cur .time)) ∧
  (∀ (s : State) (r : SlotRef), (s.slot r).status = .parked .time →
    ∃ t m, exec (.timeRequest r) s = .next t ∧ s.iod.ns ≤ t.iod.ns ∧ (s.slot r).lastTime.toNat ≤ m.toNat ∧
      t.slot r = { s.slot r with status := .ready, stage := .granted m, lastTime := m } ∧
      (let n := BitVec.ofNat 64 t.iod.ns + tget 0 s.iod.tcal (socketOf r.place)
       m = n ∨ m = (s.slot r).lastTime ∧ n.toNat < m.toNat)) ∧
  (∀ (s : State) (d owner va : Nat) (r : SlotRef) (acc : Acc), (s.slot r).status = .parked (.tlb va acc) →
    match s.walk d owner va acc with
    | .leaf e => ((s.die d).tlb.length ≤ 4096 → ∃ t old, exec (.tlbWalk d owner va r) s = .next t ∧
        t.slot r = { s.slot r with status := .ready } ∧ (t.die d).tlb = old ++ [⟨owner, va / 2 ^ leafShift e, e⟩] ∧
        old.length < 4096 ∧ ∀ x ∈ old, x ∈ (s.die d).tlb)
    | .fault k => exec (.tlbWalk d owner va r) s = .next ((s.walked d owner va).parkOn r (.fault va acc k))
    | .segv => exec (.tlbWalk d owner va r) s = .next ((s.walked d owner va).setSlot r
        { s.slot r with status := .ready, stage := if acc = .fetch then .fetchFailed va else .failed va })) ∧
  (∀ (s : State) (q a : R4) (scope : TlbScope),
    let i : Instr := .tlbi q scope a
    let v := s.now.getG a
    s.issues i q = true →
    match s.now.stage with
    | .acked _ => ∃ t, exec i s = .next t ∧ s.onlySlot t (s.past i s.now)
    | _ => ∃ t, exec i s = .next t ∧ (t.slot s.cur).status = .parked (.tlbi (s.nextId + 1)) ∧
        t.iod.tlbis = s.iod.tlbis ++ [⟨s.nextId + 1, some s.cur, scope, (v.extractLsb' 48 16).toNat, (v.extractLsb' 16 32).toNat * 2 ^ 16,
          List.range 8⟩] ∧
        t.work = s.work ++ (List.range 8).map fun d => .tlbiDieAck d (s.nextId + 1)) ∧
  (∀ (s : State) (d id : Nat) (t : Tlbi), s.iod.tlbis.find? (fun t => t.id == id) = some t → s.iod.hostWaits = [] →
    ∃ u, exec (.tlbiDieAck d id) s = .next u ∧ u.mem = s.mem ∧ (∀ d', d' ≠ d → u.die d' = s.die d') ∧
      (u.die d).tlb = (s.die d).tlb.filter (fun e => !tlbiHits t.scope t.owner t.va e) ∧
      if s.dieBusy d then u.work = s.work ++ [.tlbiDieAck d id]
      else ∀ r, t.dies.filter (fun x => x ≠ d) = [] → t.slot = some r → (s.slot r).status = .parked (.tlbi id) →
        u.slot r = { s.slot r with status := .ready, stage := .acked true }) ∧
  (∀ (s : State) (q a : R4),
    let i : Instr := .wake q a
    let v := s.now.getG a
    s.issues i q = true → s.now.status = .ready →
    (v.extractLsb' 18 46 ≠ 0 → exec i s = .next (s.begun.takeTrap s.cur { cause := cILL })) ∧
    (v.extractLsb' 18 46 = 0 → exec i s = .next (Claims.goOn s i (s.begun.wake v))) ∧
    ∀ (c k va : Nat) (acc : Acc) (kind : FaultKind), c < 2 ^ 13 → k < 8 → v.extractLsb' 17 47 = 0 →
      v.extractLsb' 0 16 = BitVec.ofNat 16 (c + k * 2 ^ 13) → (s.slot (meshSlot c k)).status = .parked (.fault va acc kind) →
      (tget {} (s.die (coreDie c)).barkers (barkerKey c k)).stall = none →
      ∃ t, exec i s = .next t ∧ t.slot s.cur = s.past i s.now ∧ t.mem = s.mem ∧
        t.slot (meshSlot c k) = (if v.getLsbD 16 then
          { s.slot (meshSlot c k) with status := .ready, stage := if acc = .fetch then .fetchFailed va else .failed va }
          else { s.slot (meshSlot c k) with status := .ready })) ∧
  (∀ (s : State) (d : Nat) (e : PfqRecord) (rest : List PfqRecord), (s.die d).pfq = e :: rest →
    ∃ t, exec (.pfqvRead d) s = .next t ∧ t = { s with dies := t.dies } ∧ (∀ d', d' ≠ d → t.die d' = s.die d') ∧
      t.die d = (match (s.die d).pfqWait with
        | w :: ws => if rest.length < 256 then { s.die d with pfq := rest ++ [w], pfqWait := ws } else { s.die d with pfq := rest }
        | [] => { s.die d with pfq := rest })) ∧
  (∀ (s : State) (md : Nat) (v : Dword),
    let block := 64 * (v.extractLsb' 6 42).toNat
    let pa := s.physNum block 8
    let new := BitVec.ofNat 64 (s.physNum (block + 8) 8)
    let owner := s.physNum (block + 16) 8 % 2 ^ 16
    let old := BitVec.ofNat 64 (s.physNum pa 8)
    (inDram block 24 = false ∨ inDram pa 8 = false →
      ∃ t, exec (.migrationGo md v) s = .next t ∧ t.md md = { s.md md with status := 3 } ∧ t.mem = s.mem ∧ ∃ hops, t.work = s.work ++ hops ∧ Claims.hopsOnly hops) ∧
    (inDram block 24 = true → inDram pa 8 = true → ∃ t, exec (.migrationGo md v) s = .next t ∧ (t.md md).status = 1 ∧ (t.md md).job = some (pa, old, new, owner) ∧
      t.mem = (s.physPut 0 pa (leBytes 8 (old ||| 0x100).toNat)).mem ∧
      (∃ hops, t.work = s.work ++ hops ++ [.migrationEnd md] ∧ Claims.hopsOnly hops) ∧
      ∀ d e, d < 8 → e ∈ (t.die d).tlb → e ∈ (s.die d).tlb ∧
        ¬ (e.owner = owner ∧ leafBase e.leaf = leafBase old ∧ leafSize e.leaf = leafSize old))) ∧
  ∀ (s : State) (md pa owner : Nat) (old new : Dword), (s.md md).job = some (pa, old, new, owner) → (List.range 8).any s.dieBusy = false →
    let plain := old &&& ~~~0x100
    let lines := List.range (leafLines old)
    s.goodLeaf owner plain = true → s.goodLeaf owner new = true → leafSize old = leafSize new →
    (lines.any (fun k => s.piecePoisoned (leafLine old (leafNear old) k)) = false ∨ old.getLsbD 9 = true) →
    ∃ t, exec (.migrationEnd md) s = .next t ∧ (t.md md).status = 2 ∧ (t.md md).job = none ∧
      t.mem = ((lines.foldl (fun s k => s.moveLine plain new k) s).physPut 0 pa (leBytes 8 new.toNat)).mem ∧
      ∀ d e, d < 8 → e ∈ (t.die d).tlb →
        ¬ (e.owner = owner ∧ leafBase e.leaf = leafBase old ∧ leafSize e.leaf = leafSize old)

namespace Sys2Proof.Claims
open Sys2Proof.Machine

/-- The target of SPAWN: a core, or any core of a die (R95). -/
def spawnTo (t : Dword) : Option (Option Nat × Nat) :=
  if t.toNat < 2 ^ 13 then some (some t.toNat, t.toNat / 1024)
  else if 0x10000 ≤ t.toNat ∧ t.toNat < 0x10008 then some (none, t.toNat - 0x10000)
  else none

/-- A slot that has just started a spawned context: at its entry, with its four arguments in g4-g7 and every other register zero,
under the requester's owner and account (R71, R73, R96). -/
def started (y : Slot) (rect : Word) (q : SpawnReq) : Prop :=
  y.status = .ready ∧ y.spawned = true ∧ y.streamed = false ∧ y.pc = q.entry ∧ y.q = 1 ∧ y.owner = q.owner ∧ y.acct = q.acct ∧ y.rect = rect ∧
  (∀ k : Nat, k < 4 → y.getG (BitVec.ofNat 4 (4 + k)) = (q.args[k]?).getD 0) ∧
  (∀ k : R4, k.toNat < 4 ∨ 7 < k.toNat → y.getG k = 0) ∧ y.v = [] ∧ y.m = [] ∧ y.relaxed = [] ∧ y.frames = [] ∧ y.depth = 0

end Sys2Proof.Claims

/-- SPAWN raises ILL for an entry that is no word address below 2^16, for a target that names neither a core nor a die, and for
stealing from a named core. A core that no launch of the owner holds leaves q15 false. Once the requests that wait and can be served have been, a free slot starts
the context at once; else the request is queued, or the slot parks when the queue is full. A freed slot takes the oldest request it can
serve; a victim's oldest stealable request of a thief's owners moves to the thief die, where a free slot starts it, and without one it
joins the thief's queue. Completes: SPAWN, SPAWN_SERVE, STEAL_REQUEST, STEAL_RESPONSE, QUIT, YIELD. QUIT frees a drained spawned slot and
is PRIV in another; YIELD only goes on without a rival, and else ends the quantum and parks (R95-R99, R349, R363, R387; that a request
travels as packets of its own is the choice of log 16, and that a core whose context is being pre-empted serves none that of log 83). -/
def Obligations.Spawning : Prop :=
  (∀ (s : State) (q b a : R4) (steal : Bool),
    let i : Instr := .spawn q steal b a
    let x := s.now
    let e := x.getG b
    s.issues i q = true → x.status = .ready →
    (2 ^ 16 ≤ e.toNat ∨ e.toNat % 4 ≠ 0 ∨ Claims.spawnTo (x.getG a) = none ∨
        (steal = true ∧ ∃ c d, Claims.spawnTo (x.getG a) = some (some c, d)) →
      exec i s = .next (s.begun.takeTrap s.cur { cause := cILL })) ∧
    ∀ (core : Option Nat) (d : Nat), e.toNat < 2 ^ 16 → e.toNat % 4 = 0 → Claims.spawnTo (x.getG a) = some (core, d) →
      (steal = true → core = none) → x.drained 1 = true →
      let rq : SpawnReq := ⟨core, d, e.extractLsb' 0 16, x.owner, x.acct, [x.getG 4, x.getG 5, x.getG 6, x.getG 7], steal⟩
      let held (c : Nat) : Prop := s.dead c = false ∧ ∃ n, s.loadedOn c = some n ∧ (s.tst n).owner = x.owner.toNat
      ((∃ c, core = some c ∧ ¬ held c) →
        ∃ t, exec i s = .next t ∧ s.onlySlot t (s.past i (x.setQ 15 false))) ∧
      ((∀ c, core = some c → held c) →
        let u := s.begun.serveReady d
        (∀ c k n, u.serverOf rq = some (c, k) → s.loadedOn c = some n → k < 8 →
          ∃ t, exec i s = .next t ∧ t.slot s.cur = s.past i (x.setQ 15 true) ∧ Claims.started (t.slot (meshSlot c k)) (s.tst n).rect rq ∧
            (t.die d).ready = (u.die d).ready ∧ ∀ b, t.byte b = s.byte b) ∧
        (u.serverOf rq = none → (u.die d).ready.length < 64 →
          ∃ t, exec i s = .next t ∧ t.slot s.cur = s.past i (x.setQ 15 true) ∧ (t.die d).ready = (u.die d).ready ++ [rq]) ∧
        (u.serverOf rq = none → 64 ≤ (u.die d).ready.length → exec i s = .next (u.parkOn s.cur (.spawnFull d))))) ∧
  (∀ (s : State) (d c k n : Nat) (q : SpawnReq), s.firstServed (s.die d).ready = some (q, c, k) → s.loadedOn c = some n → k < 8 →
    Claims.started ((s.serveReady d).slot (meshSlot c k)) (s.tst n).rect q ∧
    ((s.serveReady d).die d).ready.Sublist ((s.die d).ready.erase q) ∧
    (s.serveReady d).firstServed ((s.serveReady d).die d).ready = none) ∧
  (∀ (s : State) (d : Nat), s.firstServed (s.die d).ready = none → s.serveReady d = s) ∧
  (∀ (s : State) (d : Nat), let u := s.serveReady d
    exec (.spawnServe d) s = .next (if u.drainingSlots d then u.post (.spawnServe d) else u)) ∧
  (∀ (s : State) (a b : Nat),
    exec (.stealRequest a b) s = .next
      (if (s.die a).ready = [] ∧ s.freeOwners a ≠ [] then
        (s.transit (gate a) (gate b) 0 (2 * (s.freeOwners a).length)).post (.stealResponse a b (s.freeOwners a)) else s)) ∧
  (∀ (s : State) (a b : Nat) (owners : List Nat) (q : SpawnReq), a ≠ b → a < 8 →
    (s.die b).ready.find? (fun q => q.stealable && owners.contains q.owner.toNat) = some q →
    let u := ((s.modDie b fun x => { x with ready := x.ready.erase q }).spawnPacket (gate b) (gate a)).serveReady a
    ∃ t, exec (.stealResponse a b owners) s = .next t ∧ (t.die b).ready = (s.die b).ready.erase q ∧
      (∀ c k n, u.serverOf { q with die := a } = some (c, k) → s.loadedOn c = some n → k < 8 →
        Claims.started (t.slot (meshSlot c k)) (s.tst n).rect q ∧ (t.die a).ready = (u.die a).ready) ∧
      (u.serverOf { q with die := a } = none → (t.die a).ready = (u.die a).ready ++ [{ q with die := a }] ∧ t.slots = u.slots)) ∧
  (∀ (s : State) (a b : Nat) (owners : List Nat),
    (s.die b).ready.find? (fun q => q.stealable && owners.contains q.owner.toNat) = none → exec (.stealResponse a b owners) s = .next s) ∧
  (∀ (s : State) (q : R4),
    let i : Instr := .quit q
    let x := s.now
    s.issues i q = true →
    if x.spawned = false then exec i s = .next (s.begun.takeTrap s.cur { cause := cPRIV })
    else if x.relaxed ≠ [] ∨ s.begun.copyQueued s.cur = true then exec i s = .next (s.begun.parkOn s.cur .quitDrain)
    else ∃ t, exec i s = .next t ∧ t.slot s.cur = {} ∧ (∀ r, slotKey r ≠ slotKey s.cur → t.slot r = s.slot r) ∧ (∀ b, t.byte b = s.byte b) ∧
      ∀ c, s.cur.place = .mesh c → x.resv = none → t.work = s.work ++ [.spawnServe (c / 1024)]) ∧
  ∀ (s : State) (q : R4),
    let i : Instr := .yield q
    s.issues i q = true →
    match s.ctxOf s.cur with
    | none => ∃ t, exec i s = .next t ∧ s.onlySlot t (s.past i s.now)
    | some n =>
      if s.rival n = false then ∃ t, exec i s = .next t ∧ s.onlySlot t (s.past i s.now)
      else ∃ u : State, exec i s = .next (u.parkOn s.cur .yield) ∧ u.slots = s.begun.slots ∧ u.ctx n = (s.ctx n).map fun c => { c with expired := true }

/-- ARM raises ILL for a bad index or rectangle, SEGV for a descriptor or a bank-image table where nothing is, and POIS for a poisoned one, and waits
for the slot's own stores to it and for the die's queued ones; else it writes ERR, or arms the turnstile with
the descriptor it read, and q15 says which. A tagged message of this part that a turnstile counts is written into the firing block, and the
one that makes the count the gate fires it: the count becomes 0, OUT and the firing number rise, and the message with the block's
address goes to mb15 of the origin core. It waits behind four firings with the time it came, and is counted later under that time;
one without a turnstile is logged with its tag, and one of more than 240 bytes with its address. Completes: ARM, TAGGED_MESSAGE, TURNSTILE_COUNT_RESUME,
TURNSTILE_RELEASE, DISARM. DISARM leaves q15 false on a
free turnstile, and else stops the slots and waits for the release, which frees the turnstile and the objects of its loaded launch
(R21, R248-R252, R264, R298, R310, R321; that a firing's message travels as the part's own mail is the choice of log 16). -/
def Obligations.Turnstiles : Prop :=
  (∀ (s : State) (q c b a : R4) (tag : Word),
    let i : Instr := .arm q c b a tag
    let x := s.now
    let n := (x.getG a).toNat
    let w := (x.getG b).extractLsb' 0 32
    let pa := x.getG c
    s.issues i q = true →
    (1024 ≤ n ∨ 2 ^ 32 ≤ (x.getG b).toNat ∨ rectOk w = false → exec i s = .next (s.begun.takeTrap s.cur { cause := cILL })) ∧
    (n < 1024 → (x.getG b).toNat < 2 ^ 32 → rectOk w = true → dramTop < pa.toNat + 320 → isMmio pa.toNat = false →
      exec i s = .next (s.begun.takeTrap s.cur { cause := cSEGV, taddr := pa })) ∧
    (n < 1024 → (x.getG b).toNat < 2 ^ 32 → rectOk w = true → (pa.toNat + 320 ≤ dramTop ∨ isMmio pa.toNat = true) →
      let ps := descPieces pa.toNat
      let waits := x.unperformed ps || s.begun.queuedStores (dieOf s.cur.place) ps
      (waits = true → exec i s = .next (s.begun.parkOn s.cur (.egress (hashKey pa.toNat) 320))) ∧
      (waits = false → ps.any s.piecePoisoned = true →
        exec i s = .next (s.begun.takeTrap s.cur { cause := cPOIS, taddr := pa })) ∧
      (∀ table, waits = false → ps.any s.piecePoisoned = false → s.begun.armSegv n w pa.toNat = some table →
        exec i s = .next (s.begun.takeTrap s.cur { cause := cSEGV, taddr := BitVec.ofNat 64 table })) ∧
      (waits = false → ps.any s.piecePoisoned = false → s.begun.armSegv n w pa.toNat = none →
        ∃ t e, exec i s = .next t ∧ e = s.begun.armErr n w pa.toNat tag.toNat ∧ ((s.tst n).state ≠ 0 → e = 1) ∧
          t.slot s.cur = s.past i (x.setQ 15 (e == 0)) ∧ (∀ k, k ≠ n → t.tst k = s.tst k) ∧ (∀ b, t.byte b = s.byte b) ∧
          t.tst n = (if e = 0 then { state := 1, gate := (s.begun.readDesc pa.toNat).gate, tag := tag.toNat, rect := w,
                                     desc := some (s.begun.readDesc pa.toNat) }
            else { s.tst n with err := e })))) ∧
  (∀ (s : State) (m : Tagged) (n : Nat) (d : Desc), m.device = 0 → m.payload.length ≤ 240 → s.taggedFor m = some n →
    (s.tst n).desc = some d →
    let t := s.tst n
    if 4 ≤ t.out ∨ t.held ≠ [] then
      ∃ u, exec (.taggedMessage m) s = .next u ∧ s.iod.ns ≤ u.iod.ns ∧
        u.tst n = { t with held := t.held ++ [(m, u.iod.ns)] } ∧ u.mem = s.mem
    else ∃ u, exec (.taggedMessage m) s = .next u ∧
      ((t.count + 1 = d.gate → t.state = 2) →
        u.mem = (s.physPut (s.ownerKey d.owner.toNat) (d.payPA + 65536 * (t.fires % 4) + 256 * t.count) (firingEntry m u.iod.ns)).mem) ∧
      (t.count + 1 ≠ d.gate → u.tst n = { t with count := t.count + 1 }) ∧
      (t.count + 1 = d.gate → (u.tst n).count = 0 ∧ (u.tst n).out = t.out + 1 ∧ (u.tst n).fires = t.fires + 1 ∧ (u.tst n).state = 2) ∧
      (t.count + 1 = d.gate → t.state = 2 → n < 1024 → d.gate < 256 → ∃ f hops, u.work = s.work ++ hops ++ [.messageArrival (rectLo t.rect) d.owner.toNat 15 f none] ∧
        (∀ h ∈ hops, ∃ a b, h = .packetHop a b) ∧
        f.payload = BitVec.ofNat 64 (d.payVA + 65536 * (t.fires % 4)) ∧ f.header.extractLsb' 0 8 = 2 ∧
        f.header.extractLsb' 8 10 = BitVec.ofNat 10 n ∧ f.header.extractLsb' 24 8 = BitVec.ofNat 8 d.gate ∧
        f.header.extractLsb' 32 28 = BitVec.ofNat 28 t.fires)) ∧
  (∀ (s : State) (m : Tagged), m.device = 0 → m.payload.length ≤ 240 → s.taggedFor m = none →
    ∃ u, exec (.taggedMessage m) s = .next u ∧ u.mem = s.mem ∧
      u.iod.faultLog = (s.iod.logFault { src := 0, owner := m.owner, kind := 4, addr := m.tag, time := u.iod.ns }).faultLog) ∧
  (∀ (s : State) (m : Tagged), m.device = 0 → 240 < m.payload.length →
    ∃ u, exec (.taggedMessage m) s = .next u ∧ u.mem = s.mem ∧
      u.iod.faultLog = (s.iod.logFault { src := 0, owner := m.owner, kind := 6, addr := m.addr, time := u.iod.ns }).faultLog) ∧
  (∀ (s : State) (n : Nat), ((s.tst n).held = [] ∨ 4 ≤ (s.tst n).out ∨ (s.tst n).state = 3) → exec (.turnstileCountResume n) s = .next s) ∧
  (∀ (s : State) (n : Nat) (m : Tagged) (time : Nat) (rest : List (Tagged × Nat)) (d : Desc), (s.tst n).held = (m, time) :: rest →
    (s.tst n).out < 4 → (s.tst n).state ≠ 3 → (s.tst n).desc = some d → (s.tst n).count + 1 ≠ d.gate →
    ∃ u, exec (.turnstileCountResume n) s = .next u ∧ u.tst n = { s.tst n with held := rest, count := (s.tst n).count + 1 } ∧
      u.mem = (s.physPut (s.ownerKey d.owner.toNat) (d.payPA + 65536 * ((s.tst n).fires % 4) + 256 * (s.tst n).count) (firingEntry m time)).mem ∧
      ∃ hops, u.work = s.work ++ hops ++ (if rest = [] then [] else [.turnstileCountResume n]) ∧ Claims.hopsOnly hops) ∧
  (∀ (s : State) (q a : R4),
    let i : Instr := .disarm q a
    let n := (s.now.getG a).toNat
    s.issues i q = true →
    match s.now.stage with
    | .acked b => ∃ t, exec i s = .next t ∧ s.onlySlot t (s.past i (s.now.setQ 15 b))
    | _ =>
      if 1024 ≤ n then exec i s = .next (s.begun.takeTrap s.cur { cause := cILL })
      else if (s.tst n).state = 0 then ∃ t, exec i s = .next t ∧ s.onlySlot t (s.past i (s.now.setQ 15 false))
      else if (s.tst n).state = 3 then exec i s = .next (s.begun.parkOn s.cur (.disarm n))
      else ∃ t, exec i s = .next t ∧ (t.slot s.cur).status = .parked (.disarm n) ∧ (t.tst n).state = 3 ∧ .turnstileRelease n ∈ t.work ∧
        ∀ c k, c ∈ s.ctxCores n → k < 8 → slotKey (meshSlot c k) ≠ slotKey s.cur → (t.slot (meshSlot c k)).status = .free ∨ (t.slot (meshSlot c k)).status = .benched) ∧
  ∀ (s : State) (n : Nat), (s.tst n).state = 3 →
    if s.closing n (s.ctxCores n) then exec (.turnstileRelease n) s = .next (s.post (.turnstileRelease n))
    else ∃ t, exec (.turnstileRelease n) s = .next t ∧ (t.tst n).state = 0 ∧ (t.tst n).desc = none ∧ (t.tst n).ctx = none ∧
      ∀ d l, (s.tst n).desc = some d → s.planOf d.storePA = some l → t.planOf d.storePA = none ∧ ∀ k ∈ l.own, (t.obj k).valid = false

/-- The first load of a context whose cores are free starts its launched slots as R73 says and leaves the others free. Penvis loads a
launch before it is armed, in the rectangle it asks for or that of the lowest-numbered usable origin of the same height and width: it
creates the objects of its image, with the image's first launch, and its own, writes their numbers to
its data section, and arms it as its source says, unless a host has that duty; a launch for which there is no place or one of whose
objects cannot be created is refused with the cause and not armed. Completes: LOAD_RECTANGLE, QUANTUM_EXPIRY,
CONTEXT_IDLE, PREEMPTION, RESTORE. A pre-emption
takes a context at rest out: its slots are saved and free, and while it is not at rest it is asked again; when the incoming context is
disarmed first, it is called off, and the records and revocations that R266 put off happen then (log 100). A restore loads a
context first, or gives its slots back. A quantum that ends marks its context only when a rival of its class waits, and else begins again;
a context is idle only while its slots are (R253-R257, R266, R298, R387). How fast time moves, and how many steps idleness takes, is the
model's choice (log 6, log 20); that a restore waits while a bank cannot land is the reading of log 41, that the image's area holds the
bytes that were written is part of log 15's choice, and who declares a launch's objects and its arming, takes its refusal and asks for it again that of log 76. -/
def Obligations.Scheduling : Prop :=
  (∀ (s : State) (n : Nat) (c : Context) (d : Desc), s.ctx n = some c → (s.tst n).desc = some d → c.unloaded = true → (s.tst n).state = 2 →
    s.iod.ckptStatus ≠ 1 → s.inTheWay n = [] → c.log = [] → c.logWait = [] →
    ∃ t, exec (.loadRectangle n) s = .next t ∧ (∃ c', t.ctx n = some c' ∧ c'.loaded = true ∧ c'.unloaded = false) ∧
      ∀ core k, core ∈ rectCores (s.tst n).rect → k < 8 →
        t.slot (meshSlot core k) = if d.launched.getLsbD k then launchedSlot (s.tst n) d core k else {}) ∧
  (∀ (s : State) (p : LaunchPlan),
    let i : Instr := .vendorDefinedRequest .management (.load p)
    let key := s.ownerKey p.owner
    let refused (cause : Nat) : Prop := ∃ t, exec i s = .next t ∧ .loadRefused p.store cause ∈ t.iod.mgmt ∧ t.planOf p.store = none ∧
      ∀ n, (t.tst n).state = (s.tst n).state ∧ (t.tst n).err = (s.tst n).err
    s.planOf p.store = none →
    (s.placed p.rect = none → refused 5) ∧
    ∀ rect, s.placed p.rect = some rect →
    let p' : LaunchPlan := { p with rect := rect }
    let shared := s.imageObjects key p'
    let own := shared.2.createObjects p.owner key (rectDies [rect]) [] p.own
    (∀ cause, shared.1 = .inr cause → refused cause) ∧
    ∀ ns, shared.1 = .inl ns → (∀ cause, own.1 = .inr cause → refused cause) ∧
      ∀ ms, own.1 = .inl ms → ∃ t, exec i s = .next t ∧ t.planOf p.store = some { plan := p', own := ms } ∧
        (∀ k ∈ ms, (t.obj k).valid = true) ∧
        (∀ b, t.byte b = (if ns ++ ms = [] then own.2 else own.2.physPut key p.data ((ns ++ ms).flatMap fun k => leBytes 8 k)).byte b) ∧
        (p.arm = none ∨ s.iod.duty.getLsbD 4 = true → ∀ n, (t.tst n).state = (s.tst n).state ∧ (t.tst n).err = (s.tst n).err) ∧
        ∀ a, p.arm = some a → s.iod.duty.getLsbD 4 = false →
          let u := s.loadPlaced p'
          let n := a.index.toNat
          let e := u.armErr n rect a.desc.toNat a.tag.toNat
          armIll a.index (rect.setWidth 64) = false → (descPieces a.desc.toNat).any u.piecePoisoned = false →
          u.armSegv n rect a.desc.toNat = none →
          t.tst n = (if e = 0 then { state := 1, gate := (u.readDesc a.desc.toNat).gate, tag := a.tag.toNat, rect := rect,
                                     desc := some (u.readDesc a.desc.toNat) }
            else { u.tst n with err := e }) ∧ ∀ k, k ≠ n → t.tst k = u.tst k) ∧
  (∀ (s : State) (r rect : Word), s.placed r = some rect → s.iod.duty.getLsbD 4 = false → s.usableRect r = false →
    s.usableRect rect = true ∧ coreDie (rectLo rect) = coreDie (rectLo r) ∧
    ∀ o, coreDie o = coreDie (rectLo r) → o < rectLo rect → ∀ w, rectAt r o = some w → s.usableRect w = false) ∧
  (∀ (s : State) (n : Nat) (c : Context), s.ctx n = some c → c.loaded = true →
    (∃ t, exec (.quantumExpiry n) s = .next t ∧ t.draws = s.draws + 1 ∧ t.slots = s.slots ∧
      (t.iod.ns < c.quantumEnd → t.ctx n = some c ∧ t.work = s.work ++ [.quantumExpiry n]) ∧
      (c.quantumEnd ≤ t.iod.ns →
        ((∃ m, m ∈ s.waitingList ∧ (s.tst m).cls = (s.tst n).cls ∧ overlaps (s.tst m) (s.tst n) = true) →
          t.ctx n = some { c with expired := true }) ∧
        ((∀ m, m ∈ s.waitingList → (s.tst m).cls = (s.tst n).cls → overlaps (s.tst m) (s.tst n) = false) →
          t.ctx n = some { c with quantumEnd := t.iod.ns + tget 0 s.iod.quanta (s.tst n).cls } ∧ t.work = s.work ++ [.quantumExpiry n]))) ∧
    ∃ t b, exec (.contextIdle n) s = .next t ∧ t.draws = s.draws + 1 ∧ t.slots = s.slots ∧ .contextIdle n ∈ t.work ∧
      t.ctx n = some { c with idle := b } ∧ (b = true → s.allIdle n = true)) ∧
  (∀ (s : State) (n m : Nat) (c w : Context) (d : Desc), s.ctx n = some c → s.ctx m = some w → (s.tst n).desc = some d → (s.tst n).state = 2 →
    c.loaded = true → w.loaded = false →
    (c.stopping = some m ∨ (c.stopping = none ∧ s.yieldsTo n m = true ∧ overlaps (s.tst m) (s.tst n) = true)) →
    ∃ t c', exec (.preemption n m) s = .next t ∧ t.ctx n = some c' ∧
      if (s.modCtx n fun c => { c with stopping := some m }).atRest n then
        c'.loaded = false ∧ c'.stopping = none ∧ c'.saved.isSome = true ∧ ∀ core k, core ∈ s.ctxCores n → k < 8 → t.slot (meshSlot core k) = {}
      else c' = { c with stopping := some m } ∧ .preemption n m ∈ t.work ∧ t.slots = s.slots) ∧
  (∀ (s : State) (n m : Nat) (c : Context), s.ctx n = some c → s.ctx m = none → c.stopping = some m →
    ∃ t, exec (.preemption n m) s = .next t ∧ t.ctx n = some { c with stopping := none, pendingRevoke := [] } ∧ t.slots = s.slots ∧
      ∀ r ∈ c.pendingRevoke, (∃ b ∈ (t.site (placeKey r.place)).records, b.k = r.k ∧ b.msg = benchMessage (slotId r) false (s.slot r)) ∧
        ((s.slot r).ten.getLsbD 6 = true → (t.site (placeKey r.place)).revokeDue.isSome = true)) ∧
  ∀ (s : State) (n : Nat) (c : Context) (d : Desc), s.ctx n = some c → (s.tst n).desc = some d → c.loaded = false → (s.tst n).state = 2 →
    s.iod.ckptStatus ≠ 1 →
    (s.inTheWay n ≠ [] → exec (.restore n) s = .next s.schedule) ∧
    (s.inTheWay n = [] → c.unloaded = true → exec (.restore n) s = .next (s.post (.loadRectangle n))) ∧
    ∀ v, s.inTheWay n = [] → c.unloaded = false → c.saved = some v →
      (v.banks.all s.canLand = false → exec (.restore n) s = .next (s.post (.restore n))) ∧
      (v.banks.all s.canLand = true → c.log = [] → c.logWait = [] → c.pendingRevoke = [] →
        (∀ e ∈ v.sites, e.2.revokeDue = none) → s.keyBytes (s.ownerKey d.owner.toNat) d.ctxPA v.area.length = v.area →
        ∃ t c', exec (.restore n) s = .next t ∧ t.ctx n = some c' ∧ c'.loaded = true ∧ c'.saved = none ∧
          ∀ core k x before after, core < 2 ^ 13 → k < 8 → v.slots = before ++ (8 * core + k, x) :: after → (∀ e ∈ after, e.1 ≠ 8 * core + k) →
            x.status = .ready ∨ x.status = .parked .yield → t.slot (meshSlot core k) = restoredSlot (meshSlot core k) x)

/-- A barker sends the next word of its stream east, both words of a 64-bit instruction (R64: none follows offset 0xFFFC), or the end marker beyond the image; it
waits after a word that the lead decides (the choice of log 17; R82 lets it fetch ahead), and for a page, and a word that cannot be fetched goes as one that fails. A core's
buffer takes what its barker or its western neighbour has sent, as far as sixteen entries go; a benched core relays a unit of its
buffer for which the eastern buffer has room. A vote's final value passes one core each time on its way west, and the VOTE parked
there writes it and goes on. A streamed VOTE combines its value with what came from the west and passes its word east once, or
turns it back on the east edge; where its guard is false it passes the neutral value and goes on (log 64); unstreamed it is a
move. A parked slot goes on when what it waits for has come (R68, R69, R77-R84, R89-R92). -/
def Obligations.Streams : Prop :=
  (∀ (s : State) (d row k n : Nat) (t : Desc) (w : Word) (s' : State),
    let b := s.barker d row k
    let lead := coreId d row (coreCol (rectLo (s.tst n).rect))
    let next (b' : Barker) (u : State) : Prop := u.barker d row k = b'
    let word (off : BitVec 16) (w : Word) : StreamWord := { off := off, w := w }
    b.launch = some n → (s.tst n).desc = some t → b.waiting = false → b.stopped = false → b.stall = none → b.sent.length < 16 →
    (t.streamLen ≤ b.next.toNat → ∃ u, exec (.barkerFetch d row k) s = .next u ∧
      next { b with sent := b.sent ++ [{ word b.next (BitVec.ofNat 32 t.streamLen) with marker := true }], next := b.next + 4, stopped := true } u) ∧
    (s.streamWord d row t b.next.toNat = (.word w, s') → wordBytes w ≠ 8 → ∃ u, exec (.barkerFetch d row k) s = .next u ∧
      next { b with sent := b.sent ++ [word b.next w], next := b.next + 4, waiting := isControl (decodeInstr w 0) } u) ∧
    (s.streamWord d row t b.next.toNat = (.word w, s') → wordBytes w = 8 → b.next = 0xFFFC → ∃ u, exec (.barkerFetch d row k) s = .next u ∧
      next { b with sent := b.sent ++ [word b.next w], next := 0, waiting := false } u) ∧
    (∀ w1 s'', s.streamWord d row t b.next.toNat = (.word w, s') → wordBytes w = 8 → b.next ≠ 0xFFFC → s'.streamWord d row t (b.next + 4).toNat = (.word w1, s'') →
      ∃ u, exec (.barkerFetch d row k) s = .next u ∧
        next { b with sent := b.sent ++ [word b.next w, word (b.next + 4) w1], next := b.next + 8,
                      waiting := isControl (decodeInstr w w1) } u) ∧
    (∀ va, s.streamWord d row t b.next.toNat = (.segv va, s') → ∃ u, exec (.barkerFetch d row k) s = .next u ∧
      next { b with sent := b.sent ++ [{ word b.next 0 with fail := some va }], stopped := true } u) ∧
    ∀ va kind, s.streamWord d row t b.next.toNat = (.stall (.fault va .fetch kind) true, s') → ∃ u, exec (.barkerFetch d row k) s = .next u ∧
      u.barker d row k = { b with stall := some (.fault va .fetch kind) } ∧
      ((s.die d).pfq.length < 256 → (u.die d).pfq = (s.die d).pfq ++ [pfqRecord (slotId (meshSlot lead k)) false kind .fetch t.owner.toNat va])) ∧
  (∀ (s : State) (c k : Nat),
    let r := meshSlot c k
    let x := s.slot r
    let west := meshSlot (c - 1) k
    let room := 16 - x.buf.length
    let sent := (s.barker (coreDie c) (coreRow c) k).sent
    let unit := relayUnit false x.buf
    let n := if 16 < x.out.length + (s.slot (meshSlot (c + 1) k)).buf.length + unit then 0 else unit
    (x.streamed = false → exec (.streamWordArrival c k) s = .next s) ∧
    (x.streamed = true → x.status ≠ .benched → isLead x.rect c = true →
      (room = 0 ∨ sent = [] → exec (.streamWordArrival c k) s = .next s) ∧
      (room ≠ 0 → sent ≠ [] → ∃ t, exec (.streamWordArrival c k) s = .next t ∧ t.slot r = { x with buf := x.buf ++ sent.take room } ∧
        (t.barker (coreDie c) (coreRow c) k).sent = sent.drop room ∧ t.work = s.work ++ [.barkerFetch (coreDie c) (coreRow c) k])) ∧
    (x.streamed = true → x.status ≠ .benched → isLead x.rect c = false → 0 < c →
      ∃ t, exec (.streamWordArrival c k) s = .next t ∧ t.slot r = { x with buf := x.buf ++ (s.slot west).out.take room } ∧
        t.slot west = { s.slot west with out := (s.slot west).out.drop room }) ∧
    (x.streamed = true → x.status = .benched → isLead x.rect c = false → eastEdge x.rect c = false → 0 < c →
      ∃ t, exec (.streamWordArrival c k) s = .next t ∧
        t.slot r = { x with buf := x.buf.drop n ++ (s.slot west).out.take (16 - (x.buf.drop n).length), out := x.out ++ x.buf.take n })) ∧
  (∀ (s : State) (d row k id col : Nat) (v : Bool) (rest : List (Nat × Bool × Nat)),
    let r := meshSlot (coreId d row col) k
    let x := s.slot r
    let last := col = 0 ∨ (x.status ≠ .free ∧ isLead x.rect (coreId d row col) = true)
    (s.barker d row k).votes = (id, v, col) :: rest →
    ∃ t, exec (.voteResultArrival d row k) s = .next t ∧
      (∀ q, x.status = .parked (.vote id q) → t.slot r = { x.setQ q v with status := .ready, since := 0 }) ∧
      ((∀ q, x.status ≠ .parked (.vote id q)) → t.slot r = x) ∧
      (last → (t.barker d row k).votes = rest) ∧ (¬ last → (t.barker d row k).votes = (id, v, col - 1) :: rest)) ∧
  (∀ (s : State) (q a d : R4) (all : Bool) (c : Nat) (w : StreamWord) (rest : List StreamWord),
    let i : Instr := .vote q all a d
    let x := s.now
    let mine := if x.getQ q then x.getQ a else all
    let v := match w.vote with
      | none => mine
      | some (_, u) => if all then u && mine else u || mine
    let id := match w.vote with
      | none => s.nextId + 1
      | some (n, _) => n
    s.cur.place = .mesh c → s.issues i q = true → x.streamed = true → x.buf = w :: rest →
    ∃ t, exec i s = .next t ∧ (t.slot s.cur).buf = rest ∧ (∀ b, t.byte b = s.byte b) ∧
      (x.getQ q = true → (t.slot s.cur).status = .parked (.vote id d)) ∧
      (x.getQ q = false → (t.slot s.cur).status = x.status) ∧
      (x.onEast s.cur.place = true → (t.barker (coreDie c) (coreRow c) s.cur.k).votes =
          (s.barker (coreDie c) (coreRow c) s.cur.k).votes ++ [(id, v, coreCol c)]) ∧
      (x.onEast s.cur.place = false → (t.slot s.cur).out = x.out ++ x.held ++ [{ w with vote := some (id, v) }])) ∧
  (∀ (s : State) (q a d : R4) (all : Bool),
    let i : Instr := .vote q all a d
    s.issues i q = true → s.now.streamed = false →
    ∃ t, exec i s = .next t ∧ s.onlySlot t (s.past i (s.now.setQ d (s.now.getQ a)))) ∧
  ∀ (s : State) (r : SlotRef) (p : Park), (s.slot r).status = .parked p →
    let x := s.slot r
    (s.parkOver r p = true →
      exec (.parkResume r) s = .next (s.setSlot r { x with status := .ready, since := if p = .emptyStream then 0 else x.since })) ∧
    (s.parkOver r p = false → exec (.parkResume r) s = .next s)

namespace Sys2Proof.Claims
open Sys2Proof.Machine

/-- The matrix command of an instruction whose issue checks pass: guard, command, the local runs it reads, and whether its issuer
waits for it (R180-R184, R189, R191, R193, R194). -/
def matrixOf (s : State) : Instr → Option (R4 × MatrixCmd × List LRun × Bool)
  | .mzero q n => some (q, .mzero n.toNat, [], false)
  | .mpass q dir lat => some (q, .mpass lat dir, [], false)
  | .mstoStream q n => if fmtcBad s.now.fmtc then none else some (q, .mstoStream n.toNat s.now.fmtc s.now.rmode, [], false)
  | .mlatch q ts a lat =>
    let addr := (s.now.getG a).toNat
    match s.begun.shapeFor s.cur s.now ts with
    | none => none
    | some h =>
      let o := opSpec addr h (shDim h 0) s.now.sclb.toNat
      if shRank h = 2 ∧ matrixFmt (shFmt h) = true ∧ shDim h 0 % 32 = 0 ∧ 32 ≤ shDim h 0 ∧ shDim h 0 ≤ 1024 ∧ 16 ≤ shDim h 1 ∧
          shDim h 0 * o.elem * 16 ≤ 8192 ∧ o.issueRuns.find? crosses = none then
        some (q, .mlatch lat addr h s.now.sclb.toNat, o.issueRuns, true)
      else none
  | .mmaLatch q ts lat a n nb accum passB =>
    let cfg := mmaCfg s.now
    let addr := (s.now.getG a).toNat
    let k := 32 * (nb.toNat + 1)
    match s.begun.shapeFor s.cur s.now ts with
    | none => none
    | some h =>
      if (mmaKind cfg.srg cfg.fmta cfg.fmtb).isSome ∧ promOk cfg.prom = true ∧ shFmt h = cfg.fmta ∧ shapeBad (some h) addr k cfg.scla = none then
        some (q, .mma n.toNat addr h (.lat lat) nb.toNat accum passB cfg, (opSpec addr h k cfg.scla).issueRuns, true)
      else none
  | .mmaLocal q tsA tsB b a n nb accum =>
    let cfg := mmaCfg s.now
    let aa := (s.now.getG a).toNat
    let ab := (s.now.getG b).toNat
    let k := 32 * (nb.toNat + 1)
    match s.begun.shapeFor s.cur s.now tsA, s.begun.shapeFor s.cur s.now tsB with
    | some ha, some hb =>
      if (mmaKind cfg.srg cfg.fmta cfg.fmtb).isSome ∧ promOk cfg.prom = true ∧ shFmt ha = cfg.fmta ∧ shFmt hb = cfg.fmtb ∧
          shapeBad (some ha) aa k cfg.scla = none ∧ shapeBad (some hb) ab k cfg.sclb = none then
        some (q, .mma n.toNat aa ha (.mem ab hb) nb.toNat accum false cfg,
          (opSpec aa ha k cfg.scla).issueRuns ++ (opSpec ab hb k cfg.sclb).issueRuns, true)
      else none
    | _, _ => none
  | .msto q ts sg a n =>
    let addr := s.now.getG a
    match s.begun.shapeFor s.cur s.now ts with
    | none => none
    | some h =>
      let e := fmtcBytes s.now.fmtc
      let runs := (List.range 16).map fun m => (addr.toNat + m * shStride h 1, 16 * e)
      if fmtcBad s.now.fmtc = false ∧ shFmt h = s.now.fmtc ∧ shRank h = 2 ∧ 16 ≤ shDim h 0 ∧ 16 ≤ shDim h 1 ∧
          (if sg = 0 then runs.find? crosses = none else segOk (s.now.getS sg) addr (15 * shStride h 1 + 16 * e) .store = true) then
        some (q, .mstoMem n.toNat (s.now.getS sg) (sg == 0) addr h s.now.fmtc s.now.rmode, if sg = 0 then runs else [], true)
      else none
  | _ => none

end Sys2Proof.Claims

/-- MZERO, MPASS, MLATCH, MMA and MSTO whose checks pass enter w5 behind its commands; MMA, MLATCH and MSTO's store form park until
their command completes, the others go on; a w5 of eight commands parks them, the running one counted (the choice of log 79). An MMA
whose formats form no row, or with a PROM value of no power of two, raises ILL; MLATCH and MMA raise ELAL on an invalid shape, with the
operand's address in TADDR (the choice of log 77), and MLATCH raises ILL for a format outside R182 (log 47) (R180-R184, R189, R191, R193,
R194). -/
def Obligations.MatrixIssue : Prop :=
  (∀ (s : State) (i : Instr) (q : R4) (cmd : MatrixCmd) (runs : List LRun) (waits : Bool),
    let c := placeKey s.cur.place
    let q5 := (s.site c).w5
    Claims.matrixOf s i = some (q, cmd, runs, waits) → s.issues i q = true → s.begun.pending s.cur = none →
    if 8 ≤ q5.length then exec i s = .next (s.begun.parkOn s.cur .w5Full)
    else ∃ t e, exec i s = .next t ∧ (t.site c).w5 = q5 ++ [e] ∧ e.id = s.nextId + 1 ∧ e.slot = s.cur ∧ e.cmd = cmd ∧ e.pushed = 0 ∧
      e.summed = false ∧ e.passing = false ∧ e.asked = false ∧ e.held = [] ∧
      t.work = s.work ++ (if q5 = [] then [runEvent c cmd] else []) ∧ (∀ b, t.byte b = s.byte b) ∧
      (waits = true → (t.slot s.cur).status = .parked (.matrix e.id)) ∧ (waits = false → t.slot s.cur = s.past i s.now)) ∧
  (∀ (s : State) (q a : R4) (ts nb : BitVec 5) (n : BitVec 2) (lat accum passB : Bool),
    let i : Instr := .mmaLatch q ts lat a n nb accum passB
    let x := s.now
    let sh := s.begun.shapeFor s.cur s.now ts
    s.issues i q = true → s.begun.pending s.cur = none →
    ((mmaKind x.srg.toNat x.fmta x.fmtb = none ∨ x.prom.toNat ∉ [1, 2, 4, 8, 16, 32] ∨ ∃ h, sh = some h ∧ shFmt h ≠ x.fmta) →
      exec i s = .next (s.begun.takeTrap s.cur { cause := cILL })) ∧
    ((mmaKind x.srg.toNat x.fmta x.fmtb).isSome → x.prom.toNat ∈ [1, 2, 4, 8, 16, 32] → sh = none →
      exec i s = .next (s.begun.takeTrap s.cur { cause := cELAL, taddr := x.getG a }))) ∧
  ∀ (s : State) (q a : R4) (ts : BitVec 5) (lat : Bool),
    let i : Instr := .mlatch q ts a lat
    s.issues i q = true → s.begun.pending s.cur = none →
    (s.begun.shapeFor s.cur s.now ts = none → exec i s = .next (s.begun.takeTrap s.cur { cause := cELAL, taddr := s.now.getG a })) ∧
    ∀ h, s.begun.shapeFor s.cur s.now ts = some h → matrixFmt (shFmt h) = false →
      exec i s = .next (s.begun.takeTrap s.cur { cause := cILL })

/-- The head of w5 runs. MZERO leaves its tile ZERO. MLATCH fills its buffer from the shape's rows. A pass, of MPASS or of an MMA that
passes B on, marks the target buffer FILLING once the source is FULL and the target EMPTY, and then leaves it FULL with the source EMPTY.
An MMA writes the 256 sums of its operands, the second from memory or from a full latch, to its tile; it completes then, or with pass-B
after its pass, and merges its flags and its forced promotions and lets its issuer go on; a core that does not run begins no pass (log 104).
MSTO stores the converted rows in local memory or through a segment, or sends them to w6. Its rows for another device go there, one after
the other was acknowledged (log 79), and one that is refused ends the command with RWR and without its flags. The conversion's flags merge
when the command completes, whatever TEN enables. Completes: MZERO_RUN, MLATCH_RUN, LATCH_PASS, MMA_RUN, MSTO_RUN (R163, R180-R194, R264;
when an operand is read is the choice of log 16). -/
def Obligations.MatrixRuns : Prop :=
  let merged (x y : Slot) (flags : BitVec 6) (forced : Nat) : Prop :=
    y.status = .ready ∧ y.flags = x.flags ||| flags ∧ y.fprm.toNat = Nat.min (2 ^ 64 - 1) (x.fprm.toNat + forced)
  (∀ (s : State) (c n : Nat) (e : Queued) (rest : List Queued), (s.site c).w5 = e :: rest → e.cmd = .mzero n →
    ∃ t, exec (.mzeroRun c) s = .next t ∧ (t.site c).w5 = rest ∧ (t.site c).kind n = .zero ∧
      (∀ k m j, k ≠ n → m < 16 → j < 16 → (t.site c).kind k = (s.site c).kind k ∧ (t.site c).elem k m j = (s.site c).elem k m j) ∧
      (∀ m j, (t.site c).elem n m j = 0) ∧ t.slots = s.slots ∧ t.mem = s.mem) ∧
  (∀ (s : State) (c addr sclb : Nat) (b : Bool) (h : BitVec 256) (e : Queued) (rest : List Queued) (v : Operand) (ps : List Piece),
    (s.site c).w5 = e :: rest → e.cmd = .mlatch b addr h sclb → ((s.site c).latBuf b).st ≠ .filling →
    (s.slot e.slot).status = .parked (.matrix e.id) →
    s.memOperands c e [opSpec addr h (shDim h 0) sclb] false = .inl ([v], ps) →
    ∃ t, exec (.mlatchRun c) s = .next t ∧ (t.site c).w5 = rest ∧ (t.slot e.slot).status = .ready ∧ t.mem = s.mem ∧
      (t.site c).latBuf (!b) = (s.site c).latBuf (!b) ∧
      (t.site c).latBuf b = { st := .full, fmt := shFmt h, k := shDim h 0, scaled := v.scales.isSome, data := v.rows.flatten,
                              scales := (v.scales.getD []).flatten }) ∧
  (∀ (s : State) (c n : Nat) (lat : Bool) (dir : Dir) (e : Queued) (rest : List Queued),
    let t := ringNeighbour (s.tst n).rect c dir
    let src := (s.site c).latBuf lat
    let passB : Prop := (∃ acc addr sa nb accum cfg, e.cmd = .mma acc addr sa (.lat lat) nb accum true cfg) ∧ e.summed = true ∧ dir = .east
    (s.site c).w5 = e :: rest → e.cmd = .mpass lat dir ∨ passB → s.loadedOn c = some n →
    (e.passing = false → s.running c = false → exec (.latchPass c lat dir) s = .next s) ∧
    (e.passing = false → s.running c = true → src.st = .full → ((s.site t).latBuf (!lat)).st = .empty →
      ∃ u, exec (.latchPass c lat dir) s = .next u ∧ (u.site t).latBuf (!lat) = { src with st := .filling } ∧ u.slots = s.slots ∧
        (u.site c).latBuf lat = src ∧ (u.site c).w5 = { e with passing := true } :: rest ∧ .latchPass c lat dir ∈ u.work) ∧
    (e.passing = true → ∃ u, exec (.latchPass c lat dir) s = .next u ∧ (u.site t).latBuf (!lat) = { src with st := .full } ∧
        (u.site c).latBuf lat = {} ∧ (u.site c).w5 = rest ∧ (e.cmd = .mpass lat dir → u.slots = s.slots) ∧
        (passB → (s.slot e.slot).status = .parked (.matrix e.id) → merged (s.slot e.slot) (u.slot e.slot) e.flags e.forced))) ∧
  (∀ (s : State) (c acc addr nb : Nat) (sa : BitVec 256) (src : BSource) (accum pass : Bool) (cfg : MmaCfg) (e : Queued) (rest : List Queued)
      (a b : Operand) (ps : List Piece),
    let k := 32 * (nb + 1)
    let kind := (mmaKind cfg.srg cfg.fmta cfg.fmtb).getD .f48
    let x := s.site c
    let r := mmaSums kind cfg nb a b fun m n => if accum then x.elem acc m n else startCode cfg.srg
    x.w5 = e :: rest → e.cmd = .mma acc addr sa src nb accum pass cfg → e.summed = false →
    (accum = true → x.kind acc = .zero ∨ x.kind acc = kind) → (s.slot e.slot).status = .parked (.matrix e.id) →
    (match src with
      | .mem ab sb => pass = false ∧ s.memOperands c e [opSpec addr sa k cfg.scla, opSpec ab sb k cfg.sclb] false = .inl ([a, b], ps)
      | .lat l => (x.latBuf l).st = .full ∧ (x.latBuf l).fmt = cfg.fmtb ∧ (x.latBuf l).k = k ∧ b = latchOperand (x.latBuf l) ∧
        s.memOperands c e [opSpec addr sa k cfg.scla] false = .inl ([a], ps)) →
    ∃ t, exec (.mmaRun c) s = .next t ∧ t.mem = s.mem ∧ (t.site c).lat = x.lat ∧ (t.site c).kind acc = kind ∧
      (∀ m n, m < 16 → n < 16 → (t.site c).elem acc m n = (r.1[16 * m + n]?).getD 0 % 2 ^ 48) ∧
      (∀ j m n, j ≠ acc → m < 16 → n < 16 → (t.site c).kind j = x.kind j ∧ (t.site c).elem j m n = x.elem j m n) ∧
      (pass = false → (t.site c).w5 = rest ∧ merged (s.slot e.slot) (t.slot e.slot) r.2.1 r.2.2) ∧
      (pass = true → t.slots = s.slots ∧ (t.site c).w5 = { e with summed := true, held := [], flags := r.2.1, forced := r.2.2 } :: rest ∧
        ∀ l, src = .lat l → .latchPass c l .east ∈ t.work)) ∧
  (∀ (s : State) (c acc mode : Nat) (seg : BitVec 128) (s0 : Bool) (addr : Dword) (h : BitVec 256) (fmtc : R4) (e : Queued) (rest : List Queued),
    let x := s.slot e.slot
    let r := storedCodes (s.site c) acc fmtc mode
    let size := fmtcBytes fmtc
    let a := addr.toNat
    (s.site c).w5 = e :: rest → e.cmd = .mstoMem acc seg s0 addr h fmtc mode → x.status = .parked (.matrix e.id) → e.pushed = 0 →
    x.relaxed = [] → (s.die (coreDie c)).egress = [] → s.poison = [] →
    let done (t : State) : Prop := exec (.mstoRun c) s = .next t ∧ (t.site c).w5 = rest ∧ (t.slot e.slot).status = .ready ∧
      (t.slot e.slot).flags = x.flags ||| r.2
    (∀ b, s0 = true → a % 2 ^ 16 + 15 * shStride h 1 + 16 * size ≤ 2 ^ 16 → 16 * size ≤ shStride h 1 →
      (∀ m, m < 16 → s.localAt c e.held (a + m * shStride h 1) .store = .keys (bankKey b (a % 2 ^ 16 + m * shStride h 1))) →
      ∃ t, done t ∧
        (∀ m j, m < 16 → j < 16 * size → some (t.byte (bankKey b (a % 2 ^ 16 + m * shStride h 1 + j))) = (rowBytes r.1 size m)[j]?) ∧
        ∀ k, (∀ m j, m < 16 → j < 16 * size → k ≠ bankKey b (a % 2 ^ 16 + m * shStride h 1 + j)) → t.byte k = s.byte k) ∧
    (∀ ps : Nat → List Piece, s0 = false →
      (∀ m, m < 16 → s.rowAt c e seg false (a + m * shStride h 1) (16 * size) = .pieces (ps m) ∧ ∀ i, i < 16 * size →
        ((s.die (coreDie c)).lookup x.owner.toNat (segAddr seg (BitVec.ofNat 64 (a + m * shStride h 1 + i))).toNat).isSome) →
      (∀ m m', m < 16 → m' < 16 → ∀ p ∈ ps m, ∀ p' ∈ ps m', ∀ j j', j < p.n → j' < p'.n → p.key + j = p'.key + j' →
        m = m' ∧ p.pos + j = p'.pos + j') →
      ∃ t, done t ∧
        (∀ m, m < 16 → ∀ p ∈ ps m, ∀ j, j < p.n → some (t.byte (p.key + j)) = (rowBytes r.1 size m)[p.pos + j]?) ∧
        ∀ k, (∀ m, m < 16 → ∀ p ∈ ps m, ∀ j, j < p.n → k ≠ p.key + j) → t.byte k = s.byte k)) ∧
  (∀ (s : State) (c acc mode : Nat) (seg : BitVec 128) (s0 : Bool) (addr : Dword) (h : BitVec 256) (fmtc : R4) (e : Queued) (rest : List Queued),
    let x := s.slot e.slot
    let r := storedCodes (s.site c) acc fmtc mode
    let m := e.pushed
    let n := 16 * fmtcBytes fmtc
    let va := segAddr seg (BitVec.ofNat 64 (addr.toNat + m * shStride h 1))
    let row : Part := { pos := 0, n := n, spot := .remote (segDev seg) va, addr := va }
    (s.site c).w5 = e :: rest → e.cmd = .mstoMem acc seg s0 addr h fmtc mode → x.status = .parked (.matrix e.id) →
    (m = 16 → ∃ t, exec (.mstoRun c) s = .next t ∧ (t.site c).w5 = rest ∧ (t.slot e.slot).status = .ready ∧
      (t.slot e.slot).flags = x.flags ||| r.2 ∧ t.mem = s.mem) ∧
    (m < 16 → s0 = false → segDev seg ≠ 0 →
      (e.asked = true → exec (.mstoRun c) s = .next s) ∧
      (e.asked = false → s.meetsAway e.slot [row] = none →
        match s.bump.askParts e.slot x.at 1 s.fresh 2 2 (.row e.id) (rowBytes r.1 (fmtcBytes fmtc) m) [row] with
        | some u => ∃ t, exec (.mstoRun c) s = .next t ∧ (t.site c).w5 = { e with asked := true } :: rest ∧
            t.iod.requests = u.iod.requests ∧ t.slots = u.slots ∧ t.mem = u.mem
        | none => ∃ u : State, exec (.mstoRun c) s = .next (u.takeTrap e.slot { cause := cRWR, taddr := va, reason := 2 }) ∧
            u.slots = s.slots ∧ (u.site c).w5 = rest))) ∧
  (∀ (s v : State) (p : Packet) (q : Request) (c : Nat) (e : Queued) (rest : List Queued), s.reply p = some (q, v) → q.what = .row e.id →
    q.slot = e.slot → placeKey q.slot.place = c → (s.site c).w5 = e :: rest → e.asked = true → (s.slot e.slot).status = .parked (.matrix e.id) →
    (∃ t, exec (.fabricAck p) s = .next t ∧ (t.site c).w5 = { e with asked := false, pushed := e.pushed + 1 } :: rest ∧
      t.slots = s.slots ∧ .mstoRun c ∈ t.work) ∧
    ∃ u : State, exec (.fabricRefusal p) s = .next (u.takeTrap e.slot { cause := cRWR, taddr := q.addr, reason := 0 }) ∧
      u.slots = s.slots ∧ (u.site c).w5 = rest) ∧
  ∀ (s : State) (c acc mode : Nat) (fmtc : R4) (e : Queued) (rest : List Queued),
    let r := storedCodes (s.site c) acc fmtc mode
    let es := streamEntries r.1 (fmtcBytes fmtc)
    (s.site c).w5 = e :: rest → e.cmd = .mstoStream acc fmtc mode →
    (∀ k, k < 8 → ∀ w d, (s.slot ⟨placeOf c, k⟩).status ≠ .parked (.pop w d)) → (s.site c).queue 6 = [] → e.pushed < es.length →
    ∃ t, exec (.mstoRun c) s = .next t ∧ (t.site c).queue 6 = (es.drop e.pushed).take 8 ∧ t.mem = s.mem ∧
      (es.length ≤ e.pushed + 8 → (t.site c).w5 = rest ∧ (t.slot e.slot).flags = (s.slot e.slot).flags ||| r.2) ∧
      (e.pushed + 8 < es.length → (t.site c).w5 = { e with pushed := e.pushed + 8 } :: rest ∧ .mstoRun c ∈ t.work)

namespace Sys2Proof.Claims
open Sys2Proof.Machine

/-- The operands of a copy: guard, kind, shape slot, the registers of the far operand and the bank offset, window, signal, message,
segment (R317, R329, R346). -/
def copyOf : Instr → Option (R4 × CopyKind × BitVec 5 × R4 × R4 × R4 × Option Signal × Option CopyMsg × BitVec 3)
  | .cpyg q ts c b w sig msg sg => some (q, .cpyg, ts, c, b, w, sig, msg, sg)
  | .cpyb q ts c b w sig msg sg => some (q, .cpyb, ts, c, b, w, sig, msg, sg)
  | .cpyx q ts c b w sig msg => some (q, .cpyx, ts, c, b, w, sig, msg, 0)
  | .putr q ts c b w sig msg sg => some (q, .putr, ts, c, b, w, sig, msg, sg)
  | .getr q ts c b w sig msg sg => some (q, .getr, ts, c, b, w, sig, msg, sg)
  | _ => none

/-- A call's registers when it returns, or fails with a status word (R223). -/
def called (x : Slot) (c : R4) (r0 r1 : Dword) (ok : Bool) : Slot := ((x.setG c r0).setG (c + 1) r1).setQ 15 ok

end Sys2Proof.Claims

/-- A copy whose operands pass the checks is queued in w4 under the bank its window holds, and goes on; else it raises ILL or
PORT, or waits for a hand-over of its window (R115). Its streamer takes it from the queue, and lands it packet by packet, each sent
from the streamer's router: each byte goes to its place, and no other byte changes.
A packet that cannot be translated, or that is poisoned, suspends the copy, posts its record and tells mailbox 14; WAKE resumes
it at that packet or ends it with status 1. PUTR sends its bytes as OP 5 and GETR asks with OP 4, whose data enter the bank packet by
packet; with no valid entry for the device
they are suspended at offset 0. Before a packet of a px8 source whose row is not known the streamer finds the row (R140, R141, R146-R152,
R300, R318, R329, R346, R347). That an invalid shape slot gives TADDR 0 is the model's choice (log 35), and VA where the poison is on the bank side that of log 85. -/
def Obligations.Copies : Prop :=
  (∀ (s : State) (i : Instr) (q : R4) (kind : CopyKind) (ts : BitVec 5) (c b w : R4) (sig : Option Signal) (msg : Option CopyMsg) (sg : BitVec 3),
    let core := placeKey s.cur.place
    let x := s.now
    Claims.copyOf i = some (q, kind, ts, c, b, w, sig, msg, sg) → s.issues i q = true →
    (2 ^ 16 ≤ (x.getG b).toNat → exec i s = .next (s.begun.takeTrap s.cur { cause := cILL })) ∧
    ((x.getG b).toNat < 2 ^ 16 → kind ≠ .cpyx → s.begun.shapeFor s.cur x ts = none →
      exec i s = .next (s.begun.takeTrap s.cur { cause := cPORT, taddr := 0 })) ∧
    (∀ h, (x.getG b).toNat < 2 ^ 16 → kind ≠ .cpyx → s.begun.shapeFor s.cur x ts = some h → (shPx h = true → kind.fills = true) →
      s.begun.handing core w.toNat = false →
      ((s.entry core w.toNat).att = false ∨ (if kind.fills then (s.entry core w.toNat).wr else (s.entry core w.toNat).rd) = false) →
      exec i s = .next (s.begun.takeTrap s.cur { cause := cPORT, taddr := BitVec.ofNat 64 (w.toNat * 2 ^ 16 + (x.getG b).toNat) })) ∧
    match copyCheck s.begun s.cur x kind ts (x.getG b) (x.getG c) w sig msg sg with
    | .trap t => exec i s = .next (s.begun.takeTrap s.cur t)
    | .park p => exec i s = .next (s.begun.parkOn s.cur p)
    | .ok k =>
      if x.drained kind.scope = false then exec i s = .next (s.begun.parkOn s.cur (.drainRelaxed kind.scope))
      else if 8 ≤ (s.site core).w4.length then exec i s = .next (s.begun.parkOn s.cur .w4Full)
      else k.id = s.nextId + 1 ∧ k.kind = kind ∧ k.slot = s.cur ∧ k.bank = (s.entry core w.toNat).bank ∧ k.off = (x.getG b).toNat ∧
        k.far = x.getG c ∧ k.seg = x.getS sg ∧ k.sig = sig ∧ k.msg = msg ∧ k.owner = x.owner.toNat ∧ k.started = false ∧
        ∃ t, exec i s = .next t ∧ t.slot s.cur = s.past i x ∧ t.copies = s.copies ++ [k] ∧ (t.site core).w4 = (s.site core).w4 ++ [k.id] ∧
          t.work = s.work ∧ ∀ b, t.byte b = s.byte b) ∧
  (∀ (s : State) (core : Nat), (s.site core).w4 = [] → exec (.streamerTrafficInjection core) s = .next s) ∧
  (∀ (s : State) (core id : Nat) (rest : List Nat) (c : Copy), (s.site core).w4 = id :: rest → s.copy id = some c →
    (c.away = false → ∃ t h, exec (.streamerTrafficInjection core) s = .next t ∧ (t.site core).w4 = rest ∧
      t.copy id = some { c with started := true, handle := h } ∧
      let dst := s.packetNode { c with started := true, handle := h } c.next
      (c.unknown c.next = true ∨ streamerNode h = dst → t.work = s.work ++ [.copyPacketLand id c.next]) ∧
      (c.unknown c.next = false → streamerNode h ≠ dst → ∃ pk, t.packets = s.packets ++ [pk] ∧ pk.ev = some (.copyPacketLand id c.next) ∧ pk.src = streamerNode h ∧
        pk.dst = dst ∧ pk.cls = 2)) ∧
    (c.away = true → (∀ o, o ∈ s.copies → o.id < c.id → o.fault = none) → s.iod.route (segDev c.seg) = none →
      ∃ t k f, exec (.streamerTrafficInjection core) s = .next t ∧ t.copy id = some k ∧ k.fault = some f ∧ f.kind = .remote ∧ f.off = 0 ∧
        .copyFault id FaultKind.remote.code ∈ t.work ∧ t.mem = s.mem) ∧
    ∀ port w, c.away = true → (∀ o, o ∈ s.copies → o.id < c.id → o.fault = none) → shPx c.shape = false → s.iod.route (segDev c.seg) = some port → s.iod.portUp port = true →
      c.runs = [w] → 0 < w.n → s.runPoisoned c w = false →
      ∃ t pk q bs, exec (.streamerTrafficInjection core) s = .next t ∧ t.iod.sent = s.iod.sent ++ [⟨port, pk, bs⟩] ∧ pk.dst = segDev c.seg ∧
        pk.op = (if c.kind = .putr then 5 else 4) ∧ pk.owner = c.owner ∧ pk.len = w.n ∧ pk.tag = q.id % 2 ^ 32 ∧
        pk.addr = (segAddr c.seg (c.far + BitVec.ofNat 64 w.off)).toNat % 2 ^ 48 ∧
        pk.payload = (if c.kind = .putr then s.bytes (bankKey c.bank (c.off + w.pos)) w.n else []) ∧
        q ∈ t.iod.requests ∧ q.what = (if c.kind = .putr then .put id 0 else .get id 0)) ∧
  (∀ (s : State) (id p : Nat) (c : Copy),
    let stop (k : FaultKind) (va : Nat) : Copy :=
      { c with fault := some { packet := p, kind := k, va := va, off := (c.span p).1 } }
    s.copy id = some c → c.started = true → c.fault = none → c.away = false →
    c.landed.contains p = false → s.heldUp c = false → s.landWaits c = false → s.copyOut c = false → (∀ d, d ∈ c.inbound → d.id ≠ p) →
    (c.unknown p = true →
      (∀ w offs, s.findRow c = (.inl w, offs) → ∃ t, exec (.copyPacketLand id p) s = .next t ∧ (∀ b, t.byte b = s.byte b) ∧
        t.copy id = some { c with rows := c.rows ++ [w] }) ∧
      ∀ k va offs, s.findRow c = (.inr (.fault k va), offs) → ∃ t, exec (.copyPacketLand id p) s = .next t ∧ (∀ b, t.byte b = s.byte b) ∧
        t.copy id = some (stop k va) ∧ .copyFault id k.code ∈ t.work) ∧
    (c.unknown p = false →
    (∀ hs vas, s.packetAt c p = .hops hs vas →
      ((∃ h, h ∈ hs ∧ s.hopPoisoned h = true) → c.poisonOk ≠ some p → ∃ t, exec (.copyPacketLand id p) s = .next t ∧ t.mem = s.mem ∧
        t.copy id = some (stop .poison (s.poisonVA c p hs)) ∧ t.work = s.work ++ [.copyFault id FaultKind.poison.code]) ∧
      ((∀ h, h ∈ hs → s.hopPoisoned h = false) ∨ c.poisonOk = some p → (hs.map fun h => h.to_.1).Nodup →
        (∀ h k tag, h ∈ hs → h.from_ = .inl (k, tag) → tget 0 s.tags k = 0 ∨ tget 0 s.tags k = tag ∨ tag = 0) →
        ∃ t, exec (.copyPacketLand id p) s = .next t ∧
          (∀ h, h ∈ hs → t.byte h.to_.1 = match h.from_ with | .inl (k, _) => s.byte k | .inr b => b) ∧
          (∀ b, (∀ h, h ∈ hs → h.to_.1 ≠ b) → t.byte b = s.byte b) ∧ ∀ c', t.copy id = some c' → p ∈ c'.landed)) ∧
    (s.packetAt c p = .wait → exec (.copyPacketLand id p) s = .next (s.post (.copyPacketLand id p))) ∧
    ∀ k va, s.packetAt c p = .fault k va → ∃ t, exec (.copyPacketLand id p) s = .next t ∧ t.mem = s.mem ∧
      t.copy id = some (stop k va) ∧ t.work = s.work ++ [.copyFault id k.code])) ∧
  (∀ (s : State) (id : Nat) (c : Copy) (d : Inbound) (w : Run), s.copy id = some c → c.inbound.find? (fun e => e.id == d.id) = some d →
    c.runs[d.run]? = some w →
    (s.landWaits c = true ∨ s.copyOut c = true → exec (.copyPacketLand id d.id) s = .next (s.post (.copyPacketLand id d.id))) ∧
    (s.landWaits c = false → s.copyOut c = false → w.n = 0 ∨ d.pos + d.data.length ≤ w.n →
      ∃ t, exec (.copyPacketLand id d.id) s = .next t ∧
        (∀ j, j < d.data.length → some (t.byte (bankKey c.bank (c.off + w.pos + d.pos + j))) = d.data[j]?) ∧
        (∀ k, (∀ j, j < d.data.length → k ≠ bankKey c.bank (c.off + w.pos + d.pos + j)) →
          (∀ j, w.n ≠ 0 → w.n ≤ j → j < w.span → k ≠ bankKey c.bank (c.off + w.pos + j)) → t.byte k = s.byte k) ∧
        ((∀ e, e ∈ c.inbound → e.run = d.run → e.id = d.id) → ∀ c', t.copy id = some c' → d.run ∈ c'.landed))) ∧
  (∀ (s : State) (id : Nat) (f : CopyStop) (c : Copy), s.copy id = some c → c.fault = some f →
    let d := (dieOf c.slot.place).getD 0
    let acc : Acc := if c.kind = .cpyb ∨ c.kind = .putr then .copyWrite else .copyRead
    ∃ t m, exec (.copyFault id f.kind.code) s = .next t ∧ t.mem = s.mem ∧ t.copies = s.copies ∧
      ((s.die d).pfq.length < 256 → (t.die d).pfq = (s.die d).pfq ++ [pfqRecord c.handle true f.kind acc c.owner f.va]) ∧
      .messageArrival (placeKey c.slot.place) c.owner 14 m none ∈ t.work ∧
      m.payload = BitVec.ofNat 64 (f.off + f.kind.code * 2 ^ 32) ∧ m.header.extractLsb' 0 8 = 7) ∧
  ∀ (s : State) (q a : R4) (c : Copy) (f : CopyStop),
    let i : Instr := .wake q a
    let v := s.now.getG a
    s.issues i q = true → v.extractLsb' 18 46 = 0 → v.getLsbD 17 = true →
    s.copies.find? (fun c => c.started && c.fault.isSome && c.handle == (v.extractLsb' 0 16).toNat) = some c → c.fault = some f →
    (v.getLsbD 16 = false → c.away = false → ∃ t, exec i s = .next t ∧ t.slot s.cur = s.past i s.now ∧ t.mem = s.mem ∧
      t.copy c.id = some { c with fault := none, resume := f.packet, probe := none, poisonOk := if f.kind = .poison then some f.packet else c.poisonOk } ∧
      (.copyPacketLand c.id f.packet ∈ t.work ∨ ∃ pk, pk ∈ t.packets ∧ pk.ev = some (.copyPacketLand c.id f.packet))) ∧
    (v.getLsbD 16 = true → ∃ t, exec i s = .next t ∧ t.slot s.cur = s.past i s.now ∧ t.mem = s.mem ∧ t.copy c.id = none ∧
      ∀ m, c.msg = some m → ∃ w, .messageArrival c.signalCore c.owner m.mb.toNat w none ∈ t.work ∧
        w.payload = BitVec.ofNat 64 (c.landedIn 0 c.known + 2 ^ 32) ∧ w.header.extractLsb' 0 8 = 6)

/-- RCALL raises ILL for an object number above 255 and ends with the status words NOOBJ, NOMETH and NOREP of R223; else the sequencer appends it
at the next position of the object's log, in the entry of R216, while the log has room. RCALL then returns its position; RCALL.w
returns the results once the die has applied it. RREAD ends with the same words and NOTRO, waits for its position, and returns
what the carousel answers; RWAIT waits for a position, and RTRIM for the resync it asks for (R216, R222-R230; that replies and notices travel as packets of their own is the choice of log
16). -/
def Obligations.ReplayCalls : Prop :=
  (∀ (s : State) (q c b a : R4) (method : BitVec 6) (wait : Bool),
    let i : Instr := .rcall q method c b a wait
    let x := s.now
    let o := (x.getG a).toNat
    let ends (y : Slot) : Prop := ∃ t, exec i s = .next t ∧ s.onlySlot t (s.past i y)
    s.issues i q = true →
    (256 ≤ o → exec i s = .next (s.begun.takeTrap s.cur { cause := cILL })) ∧
    (o < 256 → x.stage = .fresh →
      if s.objectFor o x.owner = false then ends (Claims.called x c 2 0 false)
      else if s.methodEntry s.cur.place o method.toNat % 2 = 0 then ends (Claims.called x c 3 0 false)
      else if wait = true ∧ s.repHere s.cur.place o = false then ends (Claims.called x c 5 0 false)
      else s.evictFirst s.cur x o = none → exec i s = .next ((s.begun.route (nodeOf s.cur.place) ioNode 1 false 40 (.replayAppend s.cur)).parkOn s.cur
        (.append o method.toNat [x.getG b, x.getG (b + 1), x.getG (b + 2), x.getG (b + 3)]))) ∧
    ∀ p, o < 256 → x.stage = .appended p →
      (wait = false → ends (Claims.called x c (BitVec.ofNat 64 p) 0 true)) ∧
      (wait = true → (s.obj o).valid = true →
        (s.appliedAt s.cur.place o < p → exec i s = .next (s.begun.parkOn s.cur (.applied o p))) ∧
        (p ≤ s.appliedAt s.cur.place o → s.logNum (s.obj o) p 10 1 ≠ 2 → ∃ t, exec i s = .next t ∧ t.slot s.cur = s.past i
          (Claims.called x c (BitVec.ofNat 64 (s.logNum (s.obj o) p 48 8)) (BitVec.ofNat 64 (s.logNum (s.obj o) p 56 8)) true)))) ∧
  (∀ (s : State) (r : SlotRef) (n method : Nat) (args : List Dword), (s.slot r).status = .parked (.append n method args) → (s.obj n).valid = true →
    let o := s.obj n
    let p := o.tail + 1
    if 2 ^ logN o.w0 ≤ o.tail - o.trim then exec (.replayAppend r) s = .next (s.post (.replayAppend r))
    else ∃ t, exec (.replayAppend r) s = .next t ∧ t.obj n = { o with tail := p } ∧
      t.mem = (s.physPut o.key (o.entryPA p) (leBytes 8 p ++ leBytes 8 (method + slotId r % 2 ^ 16 * 2 ^ 32) ++
        args.flatMap fun v => leBytes 8 v.toNat)).mem ∧
      t.slot r = { s.slot r with status := .ready, stage := .appended p, calls := recordCall (s.slot r).calls n p } ∧
      ∃ hops, t.work = s.work ++ hops ++ (replDies o.w0).map .carouselApply ∧ ∀ h ∈ hops, ∃ a b, h = .packetHop a b) ∧
  (∀ (s : State) (q c b a : R4) (method : BitVec 6) (lin : Bool),
    let i : Instr := .rread q method c b a lin
    let x := s.now
    let o := (x.getG a).toNat
    let e := s.methodEntry s.cur.place o method.toNat
    let ends (y : Slot) : Prop := ∃ t, exec i s = .next t ∧ s.onlySlot t (s.past i y)
    s.issues i q = true →
    (256 ≤ o → exec i s = .next (s.begun.takeTrap s.cur { cause := cILL })) ∧
    (∀ st r0 r1, o < 256 → x.stage = .readDone st r0 r1 →
      ends (if st = 0 then Claims.called x c r0 r1 true else Claims.called x c st 0 false)) ∧
    (o < 256 → x.stage = .fresh ∨ (∃ p, x.stage = .tailIs p) →
      if s.objectFor o x.owner = false then ends (Claims.called x c 2 0 false)
      else if e % 2 = 0 then ends (Claims.called x c 3 0 false)
      else if s.repHere s.cur.place o = false then ends (Claims.called x c 5 0 false)
      else if e / 2 % 2 = 0 then ends (Claims.called x c 4 0 false)
      else
        (x.stage = .fresh → lin = true → exec i s = .next ((s.begun.post (.tailFetch s.cur)).parkOn s.cur (.tail o))) ∧
        ∀ d p, dieOf s.cur.place = some d →
          (x.stage = .tailIs p ∨ (x.stage = .fresh ∧ lin = false ∧ p = ((x.calls.find? fun k => k.1 == o).map Prod.snd).getD 0)) →
          ((s.replica d o).applied < p → exec i s = .next (s.begun.parkOn s.cur (.applied o p))) ∧
          (p ≤ (s.replica d o).applied → (s.die d).reads.length < 64 → ∃ t, exec i s = .next t ∧
            (t.slot s.cur).status = .parked (.read d o) ∧ t.work = s.work ++ [.carouselRead d] ∧
            (t.die d).reads = (s.die d).reads ++ [⟨o, method.toNat, [x.getG b, x.getG (b + 1), x.getG (b + 2), x.getG (b + 3)], s.cur⟩]))) ∧
  (∀ (s : State) (r : SlotRef) (n : Nat), (s.slot r).status = .parked (.tail n) →
    exec (.tailFetch r) s = .next ((s.exchange (nodeOf r.place) ioNode 1 0 8).setSlot r
      { s.slot r with status := .ready, stage := .tailIs (s.obj n).tail })) ∧
  (∀ (s : State) (q b a : R4),
    let i : Instr := .rwait q b a
    let x := s.now
    let o := (x.getG a).toNat
    let p := (x.getG b).toNat
    let ends (b : Bool) : Prop := ∃ t, exec i s = .next t ∧ s.onlySlot t (s.past i (x.setQ 15 b))
    s.issues i q = true → x.stage = .fresh →
    if 256 ≤ o then exec i s = .next (s.begun.takeTrap s.cur { cause := cILL })
    else if s.objectFor o x.owner = false ∨ s.repHere s.cur.place o = false then ends false
    else if s.appliedAt s.cur.place o < p then exec i s = .next (s.begun.parkOn s.cur (.applied o p))
    else ends true) ∧
  ∀ (s : State) (q a : R4),
    let i : Instr := .rtrim q a
    let x := s.now
    let o := (x.getG a).toNat % 2 ^ 8
    let ends (b : Bool) : Prop := ∃ t, exec i s = .next t ∧ s.onlySlot t (s.past i (x.setQ 15 b))
    s.issues i q = true →
    (2 ^ 16 ≤ (x.getG a).toNat → exec i s = .next (s.begun.takeTrap s.cur { cause := cILL })) ∧
    ((x.getG a).toNat < 2 ^ 16 → (∀ ok, x.stage = .trimmed ok → ends ok) ∧
      (x.stage = .fresh → match s.trimDies o ((x.getG a).toNat / 2 ^ 8) with
        | none => ends false
        | some [] => ∃ t, exec i s = .next t ∧ t.slot s.cur = s.past i (x.setQ 15 true) ∧ t.obj o = { s.obj o with trim := (s.obj o).trimTo }
        | some ds => exec i s = .next ((s.begun.trimStart o ds).parkOn s.cur (.trim o ds))))

/-- A descriptor whose fields are in range makes a valid object with an empty log and a replica at position 0 on each die, whose block reads zero and bears no mark; another sets
ERR. Clearing V discards the replicas. A free carousel starts the next entry of the object whose turn it is, and its oldest read, as R219 says; the RET that
brings a method's depth to 0 ends it: slot 0 advances the applied position, a read answers its caller. A report comes in with
the position it was sent with, after each 64th and at the log's end, and TRIM never falls; a resync copies the donor's position and state (R215-R221, R225, R229, R231, R232; that g2 and the
entry hold the low 16 bits of a control core's SLOT is the choice of log 90, and where the round robin begins that of log 89). -/
def Obligations.ReplayedObjects : Prop :=
  (∀ (s : State) (n : Nat) (w0 : Dword),
    let o := s.obj n
    o.valid = false →
    if o.busy = true then
      ∃ t, exec (.objectCreate n w0) s = .next t ∧ (t.obj n).valid = false ∧ (t.obj n).w0.extractLsb' 1 2 = 3 ∧ t.mem = s.mem
    else if fieldsOk w0 o.w1 o.w2 = false then
      ∃ t, exec (.objectCreate n w0) s = .next t ∧ (t.obj n).valid = false ∧ (t.obj n).w0.extractLsb' 1 2 = 1 ∧ t.mem = s.mem
    else if (replDies w0).any (fun d => decide ((s.freePool d).length < poolBanks o.w2)) then
      ∃ t, exec (.objectCreate n w0) s = .next t ∧ (t.obj n).valid = false ∧ (t.obj n).w0.extractLsb' 1 2 = 2 ∧ t.mem = s.mem
    else ∃ t, exec (.objectCreate n w0) s = .next t ∧ (t.obj n).valid = true ∧ (t.obj n).tail = 0 ∧ (t.obj n).trim = 0 ∧
      (t.obj n).w1 = o.w1 ∧ (t.obj n).w2 = o.w2 ∧ ∀ d, d ∈ replDies w0 →
        (t.replica d n).applied = 0 ∧ (t.replica d n).pool.length = poolBanks o.w2 ∧
        ∀ a k, (t.replica d n).pool = [a] → k < o.blockBytes → t.byte (poolKey d a k) = 0 ∧ t.poisoned (poolKey d a k) = false) ∧
  (∀ (s : State) (n : Nat), (s.obj n).valid = true →
    ∃ t, exec (.objectDestroy n) s = .next t ∧ (t.obj n).valid = false ∧ (t.obj n).busy = false ∧ t.mem = s.mem ∧
      .objectDestroy n ∉ t.work ∧ ∀ d, d < 8 → t.replica d n = {}) ∧
  (∀ (s : State) (d n : Nat),
    let zero : SlotRef := { place := .carousel d, k := 0 }
    let o := s.obj n
    let p := (s.replica d n).applied + 1
    let e := s.methodEntry zero.place n (s.logNum o p 8 1 % 64)
    (s.slot zero).status = .free → s.turnOf d = some n →
    ∃ t, exec (.carouselApply d) s = .next t ∧ (t.slot zero).status = .ready ∧ (t.slot zero).pc = BitVec.ofNat 16 (e / 4 * 4) ∧
      (t.slot zero).q = 1 ∧ (t.slot zero).depth = 1 ∧ (t.die d).turn = n ∧
      (t.slot zero).method = some { obj := n, pos := p, ro := e / 2 % 2 = 1, left := budgetOf o.w2, wbuf := [], caller := none } ∧
      (t.slot zero).getG 2 = BitVec.ofNat 64 (s.logNum o p 12 2) ∧ (t.slot zero).getG 3 = BitVec.ofNat 64 p ∧
      ∀ k : Nat, k < 4 → (t.slot zero).getG (BitVec.ofNat 4 (4 + k)) = BitVec.ofNat 64 (s.logNum o p (16 + 8 * k) 8)) ∧
  (∀ (s : State) (d k : Nat) (q : ReadReq) (rest : List ReadReq), (s.die d).reads = q :: rest →
    (s.replica d q.obj).resync = false →
    (List.range 7).find? (fun k => (s.slot { place := .carousel d, k := k + 1 }).status == .free) = some k → s.committing d = false →
    ∃ t m, exec (.carouselRead d) s = .next t ∧ (t.slot { place := .carousel d, k := k + 1 }).status = .ready ∧
      (t.slot { place := .carousel d, k := k + 1 }).method = some m ∧ m.obj = q.obj ∧ m.ro = true ∧ m.caller = some q.caller ∧
      (t.die d).reads = rest) ∧
  (∀ (s : State) (q : R4) (d : Nat) (m : Method),
    let i : Instr := .ret q
    let x := s.now
    s.cur.place = .carousel d → s.issues i q = true → x.streamed = false → x.getQ q = true → x.method = some m → x.depth = 1 →
    (x.getG 15).toNat < 2 ^ 16 → (x.getG 15).toNat % 4 = 0 → (s.replica d m.obj).resync = false →
    (s.cur.k = 0 → s.begun.readsIdle d = false → exec i s = .next (s.begun.parkOn s.cur (.read d m.obj))) ∧
    (s.cur.k = 0 → s.begun.readsIdle d = true → ∃ t, exec i s = .next t ∧ t.slot s.cur = {} ∧ (t.replica d m.obj).applied = m.pos ∧
      (t.replica d m.obj).onWay = (s.replica d m.obj).onWay ++ (if m.pos % 64 = 0 ∨ m.pos = (s.obj m.obj).tail then [m.pos] else []) ∧
      .carouselApply d ∈ t.work) ∧
    ∀ c, s.cur.k ≠ 0 → m.caller = some c → slotKey c ≠ slotKey s.cur → (s.slot c).status = .parked (.read d m.obj) →
      ∃ t, exec i s = .next t ∧ t.slot s.cur = {} ∧ t.slot c = { s.slot c with stage := .readDone 0 (x.getG 2) (x.getG 3) } ∧
        .carouselRead d ∈ t.work) ∧
  (∀ (s : State) (d n : Nat), (s.obj n).valid = true → (s.obj n).repl d = true →
    ((s.replica d n).onWay = [] → exec (.appliedPositionReport d n) s = .next s) ∧
    ∀ p rest, (s.replica d n).onWay = p :: rest → ∃ t, exec (.appliedPositionReport d n) s = .next t ∧
      tget 0 (t.obj n).reported d = p ∧ (t.replica d n).onWay = rest ∧ (s.obj n).trim ≤ (t.obj n).trim ∧ t.mem = s.mem) ∧
  ∀ (s : State) (d e n : Nat), (s.obj n).valid = true → (s.obj n).repl d = true → s.donor n d = some e →
    if s.runsObject e n 1 = true ∨ s.runsObject d n 8 = true then exec (.replicaResync n d) s = .next
      ((((replDies (s.obj n).w0).filter (· ≠ e)).foldl (fun s d => s.postOnce (.carouselApply d)) s).post (.replicaResync n d))
    else s.blockPoisoned e n = false → ∃ t, exec (.replicaResync n d) s = .next t ∧ (t.replica d n).applied = (s.replica e n).applied ∧
      (t.replica d n).stopped = false ∧ (t.replica d n).resync = false ∧
      ∀ a b, (s.replica d n).pool = [a] → (s.replica e n).pool = [b] → a < 64 → b < 64 → (s.obj n).blockBytes ≤ 2 ^ 16 →
        ∀ k, k < (s.obj n).blockBytes → t.byte (poolKey d a k) = s.byte (poolKey e b k)

namespace Sys2Proof.Claims
open Sys2Proof.Machine

/-- The part's answer to a packet of a device: it leaves on the port that leads there, with the tag it answers, and nothing of memory,
slots or requests changed in sending it. -/
def answers (s t : State) (p : Packet) (op : Nat) (payload : List Byte) : Prop :=
  ∀ port, s.iod.route p.src = some port → s.iod.portUp port = true →
    ∃ k bs, t.iod.sent = s.iod.sent ++ [⟨port, k, bs⟩] ∧ k.dst = p.src ∧ k.op = op ∧ k.tag = p.tag ∧ k.payload = payload

/-- The kinds of the fault log (R264): the log of t is that of s with one more record, made at the time t has. -/
def logged (s t : State) (p : Packet) (kind : Nat) : Prop :=
  t.iod.faultLog = (s.iod.logFault ⟨p.src, p.owner, kind, p.addr, t.iod.ns⟩).faultLog

end Sys2Proof.Claims

/-- Requests of other devices are translated in the home tables under the owner they name. A load or GETR is answered with the bytes; a
store, of the bytes that its mask names, an atomic or a copy write is performed before its answer leaves, an atomic's with the old value; one that is refused is answered
with OP 8, changes no memory, and, unless it is a load, enters the fault log with its kind; an atomic waits while its word is
reserved, and one whose confirmation is lost is logged with kind 5 (R211, R242, R264, R275, R304, R347). Whose tables translate
(log 36), the kind logged for a GETR (log 71) and when a confirmation is lost (log 59) are the model's choice. -/
def Obligations.FabricRequests : Prop :=
  (∀ (s : State) (i : Instr) (p : Packet) (acc : Acc), (i = .fabricLoadRequest p ∧ acc = .load ∨ i = .fabricGetrRequest p ∧ acc = .copyRead) →
    (∀ ps, s.homePieces p.owner p.addr p.len acc = some ps → ps.any s.piecePoisoned = false →
      ∃ t, exec i s = .next t ∧ t.mem = s.mem ∧ t.slots = s.slots ∧ Claims.answers s t p 10 (ps.flatMap s.readPiece)) ∧
    ((s.homePieces p.owner p.addr p.len acc = none ∨ ∃ ps, s.homePieces p.owner p.addr p.len acc = some ps ∧ ps.any s.piecePoisoned = true) →
      ∃ t, exec i s = .next t ∧ t.mem = s.mem ∧ t.slots = s.slots ∧ (acc = .load → t.iod.faultLog = s.iod.faultLog) ∧
        (acc = .copyRead → Claims.logged s t p 3) ∧ Claims.answers s t p 8 [])) ∧
  (∀ (s : State) (i : Instr) (p : Packet) (acc : Acc) (kind : Nat),
    (i = .fabricStore p ∧ acc = .store ∧ kind = 1 ∨ i = .fabricPutrData p ∧ acc = .copyWrite ∧ kind = 3) →
    let kept (ps : List Piece) : List Piece := if kind = 1 then ps.filter fun k => 64 ≤ k.pos || p.mask.getLsbD k.pos else ps
    (∀ ps, s.homePieces p.owner p.addr p.payload.length acc = some ps → (kind = 1 → s.homePoisoned (kept ps) = false) →
      ∃ t, exec i s = .next t ∧ t.mem = ((kept ps).foldl (fun s k => s.writePiece k p.payload) s).mem ∧ t.slots = s.slots ∧
        t.iod.faultLog = s.iod.faultLog ∧ Claims.answers s t p 7 []) ∧
    ((s.homePieces p.owner p.addr p.payload.length acc = none ∨
        (kind = 1 ∧ ∃ ps, s.homePieces p.owner p.addr p.payload.length acc = some ps ∧ s.homePoisoned (kept ps) = true)) →
      ∃ t, exec i s = .next t ∧ t.mem = s.mem ∧ t.slots = s.slots ∧ Claims.logged s t p kind ∧ Claims.answers s t p 8 [])) ∧
  ∀ (s : State) (p : Packet),
    (∀ n len f ps, atomKind p.asub p.payload = some (n, len, f) → p.addr % n = 0 → p.payload.length = len →
      s.homePieces p.owner p.addr n .atomic = some ps →
      (s.wordsHeld ps = true → exec (.fabricAtomic p) s = .next (s.post (.fabricAtomic p))) ∧
      (s.wordsHeld ps = false → ps.any s.piecePoisoned = false →
      let old := ofLe (ps.flatMap s.readPiece)
      ∃ t, exec (.fabricAtomic p) s = .next t ∧ t.mem = (ps.foldl (fun s k => s.writePiece k (leBytes n (f old))) s).mem ∧ t.slots = s.slots ∧
        (Claims.answers s t p 9 (leBytes 8 old) ∧ t.iod.faultLog = s.iod.faultLog ∨ Claims.logged s t p 5 ∧ Claims.answers s t p 9 []))) ∧
    ((9 ≤ p.asub ∨ (∃ n len f, atomKind p.asub p.payload = some (n, len, f) ∧ (p.addr % n ≠ 0 ∨ p.payload.length ≠ len))) →
      ∃ t, exec (.fabricAtomic p) s = .next t ∧ t.mem = s.mem ∧ t.slots = s.slots ∧ Claims.logged s t p 2 ∧ Claims.answers s t p 8 [])

namespace Sys2Proof.Claims
open Sys2Proof.Machine

/-- Kind and payload of a remote atomic (R304). -/
def atomAsked (x : Slot) : Instr → Option (Nat × List Byte)
  | .aadd _ _ _ _ d => some (0, leBytes 8 (x.getG d).toNat)
  | .aand _ _ _ _ d => some (1, leBytes 8 (x.getG d).toNat)
  | .aor _ _ _ _ d => some (2, leBytes 8 (x.getG d).toNat)
  | .axor _ _ _ _ d => some (3, leBytes 8 (x.getG d).toNat)
  | .amin _ _ _ _ d => some (4, leBytes 8 (x.getG d).toNat)
  | .amax _ _ _ _ d => some (5, leBytes 8 (x.getG d).toNat)
  | .axch _ _ _ _ d => some (6, leBytes 8 (x.getG d).toNat)
  | .acas _ wide _ _ b _ d =>
    let low (v : Dword) : List Byte := leBytes 8 (v.toNat % 2 ^ (if wide then 64 else 32))
    some (if wide then 8 else 7, low (x.getG d) ++ low (x.getG b))
  | _ => none

/-- Accesses that each go to another device through a port that is up, and that meet no request of the slot that is still out. -/
def goAway (s : State) (ps : List Part) : Prop :=
  ps ≠ [] ∧ s.meetsAway s.cur ps = none ∧
  ∀ p ∈ ps, ∃ dev va port, p.spot = .remote dev va ∧ s.iod.route dev = some port ∧ s.iod.portUp port = true

/-- One request for each access has left, under one group, with its packet on the port that leads to the device. -/
def asked (s t : State) (group op asub : Nat) (what : ReqFor) (ps : List Part) (pay : Part → List Byte) : Prop :=
  ∃ (rs : List Request) (ws : List Wired), t.iod.requests = s.iod.requests ++ rs ∧ t.iod.sent = s.iod.sent ++ ws ∧ rs.length = ps.length ∧ ws.length = ps.length ∧
    t.mem = s.mem ∧ ∀ (j : Nat) (p : Part) (r : Request) (w : Wired), ps[j]? = some p → rs[j]? = some r → ws[j]? = some w →
      r.group = group ∧ r.slot = s.cur ∧ r.what = what ∧ r.pos = p.pos ∧ r.n = p.n ∧ r.bad = none ∧ r.ctx = s.ctxOf s.cur ∧
      p.spot = .remote r.dev r.addr ∧ s.iod.route r.dev = some w.port ∧ w.packet.dst = r.dev ∧ w.packet.op = op ∧ w.packet.asub = asub ∧
      w.packet.owner = s.now.owner.toNat ∧ w.packet.tag = r.id % 2 ^ 32 ∧ w.packet.addr = r.addr.toNat % 2 ^ 48 ∧
      w.packet.payload = pay p ∧ (op ≠ 3 → w.packet.mask = p.mask)

end Sys2Proof.Claims

/-- An access to another device leaves at its issue as OP 1, 2 or 3, one request for each access, and its slot parks until the answers; a
relaxed one goes on with them outstanding; a device that no entry names gives RWR with REASON 2. The answer to a request of this part
ends it. A load's data enters its register and its slot goes on, a GETR's data is on its way to the bank, a store's acknowledgement lets
its slot go on, an atomic's reply gives the old value; data of the wrong length is dropped, and a reply without a request only
counts its flits. A refusal raises RWR with REASON 0 at the access, a request without an answer REASON 1, and an atomic's lost
confirmation RAI. A link counts its failures, asks again for what came damaged, sends again what it is asked for, and retrains
after eight in a row; a host's command of an unknown code ends with status 2 (R130, R211, R264, R265, R274-R277, R295, R304, R347). That data
of another length is dropped is the choice of log 59, and that a damaged packet and a resend request both count as a retry and a
failure the reading of log 40. -/
def Obligations.FabricReplies : Prop :=
  (∀ (i : Instr) (s : State) (q : R4) (sg : BitVec 3) (ws : List Want) (acc : Acc) (dest : LoadDest) (v : Nat) (mask : Dword) (ps : List Part),
    let x := s.now
    let qs := if acc = .load ∨ mask = -1 then ps else ps.flatMap fun p => p.cut mask
    let op := if acc = .load then 1 else 2
    let pay (p : Part) : List Byte := if acc = .load then [] else (List.range p.n).map fun j => BitVec.ofNat 8 (v / 2 ^ (8 * (p.pos + j)))
    (acc = .load ∧ Claims.loadOf s i = some (q, sg, ws, dest) ∨ acc = .store ∧ Claims.storeOf s i = some (q, sg, ws, v, mask)) →
    s.issues i q = true → (∀ va, x.stage ≠ .failed va) → s.begun.places s.cur sg acc ws = .ok ps →
    (Claims.goAway s qs → relaxedHere s.cur x = false → ∃ t g, exec i s = .next t ∧ (t.slot s.cur).status = .parked (.remote g) ∧
      Claims.asked s t g op 0 (if acc = .load then .load dest else .store) qs pay) ∧
    (Claims.goAway s qs → relaxedHere s.cur x = true → x.relaxed.length < 8 → ∃ t a, exec i s = .next t ∧
      t.slot s.cur = s.past i { x with relaxed := x.relaxed ++ [a] } ∧ a.store = decide (acc = .store) ∧ a.away = qs.length ∧
      Claims.asked s t a.id op 0 (if acc = .load then .relaxedLoad a.id else .relaxedStore a.id) qs pay) ∧
    ∀ p rest dev va, qs = p :: rest → p.spot = .remote dev va → s.meetsAway s.cur qs = none → s.iod.route dev = none →
      relaxedHere s.cur x = false → exec i s = .next (s.begun.takeTrap s.cur { cause := cRWR, taddr := p.addr, reason := 2 })) ∧
  (∀ (i : Instr) (s : State) (q : R4) (sg : BitVec 3) (off : Dword) (n : Nat) (d : R4) (f : Dword → Dword × Dword × Option Bool)
      (dev sub : Nat) (va : Dword) (pay : List Byte),
    let p : Part := { pos := 0, n := n, spot := .remote dev va, addr := va }
    Claims.atomOf s.now i = some (q, sg, off, n, d, f) → Claims.atomAsked s.now i = some (sub, pay) → s.issues i q = true →
    s.now.stage = .fresh → s.now.resv = none → s.begun.look s.cur sg off n .atomic n = .at (.remote dev va) →
    (Claims.goAway s [p] → ∃ t g, exec i s = .next t ∧ (t.slot s.cur).status = .parked (.remote g) ∧
      Claims.asked s t g 3 sub (.atomic d (decide (7 ≤ sub)) n) [p] fun _ => pay) ∧
    (s.meetsAway s.cur [p] = none → s.iod.route dev = none →
      exec i s = .next (s.begun.takeTrap s.cur { cause := cRWR, taddr := va, reason := 2 }))) ∧
  (∀ (s : State) (p : Packet) (q : Request),
    let x := s.slot q.slot
    let goes (y : Slot) : Slot := { y.retire (x.onEast q.slot.place) q.words with status := .ready }
    let gone (t : State) : Prop := t.iod.requests = s.iod.requests.filter (fun k => k.id ≠ q.id) ∧ t.mem = s.mem
    s.iod.request p.src p.tag = some q → x.status = .parked (.remote q.group) → q.bad = none →
    (∀ d n signed, q.what = .load (.g d n signed) → s.iod.groupOf q.group = [q] → q.pos = 0 → q.n = n → p.payload.length = n →
      ∃ t, exec (.fabricLoadData p) s = .next t ∧ gone t ∧ t.slot q.slot = goes (x.setG d
        (if signed then BitVec.ofInt 64 (signedOf (8 * n) (ofLe p.payload)) else BitVec.ofNat 64 (ofLe p.payload)))) ∧
    (p.payload.length ≠ q.n → ∃ t, exec (.fabricLoadData p) s = .next t ∧ t.slots = s.slots ∧ t.mem = s.mem ∧
      t.iod.requests = s.iod.requests) ∧
    (q.what = .store → s.iod.groupOf q.group = [q] → ∃ t, exec (.fabricAck p) s = .next t ∧ gone t ∧ t.slot q.slot = goes x) ∧
    (∀ d, q.what = .atomic d false 8 → p.asub = 0 → ∃ t, exec (.fabricAtomicReply p) s = .next t ∧ gone t ∧
      t.slot q.slot = goes (x.setG d (BitVec.ofNat 64 (ofLe (p.payload.take 8))))) ∧
    (∀ d cas n, q.what = .atomic d cas n → p.asub = 1 → ∃ t, exec (.fabricAtomicReply p) s = .next t ∧ gone t ∧
      (t.slot q.slot).status = .ready ∧ (t.slot q.slot).g = x.g ∧ (t.slot q.slot).faults =
        if q.ctx = s.ctxOf q.slot then insertFault ⟨q.id, q.tepc, cRAI, q.addr, 0⟩ x.faults else x.faults) ∧
    ((∃ dest, q.what = .load dest) ∨ q.what = .store → s.iod.groupOf q.group = [q] →
      (∃ u, exec (.fabricRefusal p) s = .next (u.takeTrap q.slot { cause := cRWR, taddr := q.addr, reason := 0 }) ∧ u.slots = s.slots ∧ gone u) ∧
      (s.iod.requests.find? (fun k => k.id == q.id) = some q →
        ∃ u, exec (.requestTimeout q.id) s = .next (u.takeTrap q.slot { cause := cRWR, taddr := q.addr, reason := 1 }) ∧ u.slots = s.slots ∧ gone u))) ∧
  (∀ (s : State) (p : Packet) (q : Request) (c n : Nat) (k : Copy) (w : Run), s.iod.request p.src p.tag = some q → q.what = .get c n →
    p.payload.length = q.n → s.copy c = some k → k.runs[n]? = some w →
    ∃ t ds k', exec (.fabricLoadData p) s = .next t ∧ t.iod.requests = s.iod.requests.filter (fun e => e.id ≠ q.id) ∧ t.mem = s.mem ∧
      t.copy c = some k' ∧ k'.inbound = k.inbound ++ ds ∧ ds.flatMap Inbound.data = p.payload ∧ ∀ d ∈ ds, d.run = n) ∧
  (∀ (s : State) (p : Packet) (i : Instr), s.iod.request p.src p.tag = none →
    (i = .fabricLoadData p ∨ i = .fabricAck p ∨ i = .fabricRefusal p ∨ i = .fabricAtomicReply p) →
    ∃ t, exec i s = .next t ∧ t = { s with iod := t.iod } ∧ t.iod.requests = s.iod.requests ∧ t.iod.sent = s.iod.sent ∧
      tget 0 t.iod.accounts 5 = tget 0 s.iod.accounts 5 + BitVec.ofNat 64 (64 * fabricFlits p.payload.length)) ∧
  (∀ (s : State) (port seq : Nat) (p : Packet) (i : Instr),
    let x := s.iod.port port
    (i = .fabricBadOp port p ∧ commandWords p = none ∨ i = .headerCrcError port ∨ i = .linkResendRequest port seq) →
    ∃ t, exec i s = .next t ∧ t = { s with iod := t.iod } ∧
      ((t.iod.port port).state = if 7 ≤ x.fails then 1 else x.state) ∧ ((t.iod.port port).fails = if 7 ≤ x.fails then 0 else x.fails + 1) ∧
      (7 ≤ x.fails → (t.iod.port port).trains = Nat.min 65535 (x.trains + 1)) ∧
      (x.fails < 7 → i ≠ .fabricBadOp port p → (t.iod.port port).retry = Nat.min 255 (x.retry + 1)) ∧
      (i = .headerCrcError port → t.iod.resends = s.iod.resends ++ [(port, x.expect)]) ∧
      (i = .linkResendRequest port seq → x.state = 2 →
        (t.iod.sent.map fun w => (w.port, w.packet)) = (s.iod.sent.map fun w => (w.port, w.packet)) ++
          (x.replay.dropWhile fun e => e.2.seq != seq % 2 ^ 16).map fun e => (port, e.2))) ∧
  (∀ (s : State) (port : Nat) (p : Packet), commandWords p ≠ none →
    ∃ t, exec (.fabricBadOp port p) s = .next t ∧ t = { s with iod := t.iod } ∧
      ∀ out, s.iod.route p.src = some out → s.iod.portUp out = true →
        ∃ k bs, t.iod.sent = s.iod.sent ++ [⟨out, k, bs⟩] ∧ k.dst = p.src ∧ k.op = 12 ∧ (k.payload.drop 8).take 8 = leBytes 8 2) ∧
  ∀ (s : State) (port : Nat) (key : Bool),
    (∃ t, exec (.portDown port) s = .next t ∧ t = { s with iod := t.iod } ∧ t.iod.portUp port = false ∧ (t.iod.port port).state = 0) ∧
    ∃ t, exec (.portUp port key) s = .next t ∧ t = { s with iod := t.iod } ∧ t.iod.portUp port = key ∧
      (t.iod.port port).state = (if key then 2 else 3) ∧ (key = true → (t.iod.port port).count = 0 ∧
        (t.iod.port port).session = (s.iod.port port).session + 1)

namespace Sys2Proof.Claims
open Sys2Proof.Machine

/-- Request code, the way it came in, bytes and whether the answer is signed, of the SPDM requests but GET_MEASUREMENTS (R281). -/
def spdmOf : Instr → Option (Nat × Way × List Byte × Bool)
  | .getVersion m => some (0x84, m.way, m.bytes, false)
  | .getCapabilities m => some (0xE1, m.way, m.bytes, false)
  | .negotiateAlgorithms m => some (0xE3, m.way, m.bytes, false)
  | .getDigests m => some (0x81, m.way, m.bytes, false)
  | .getCertificate m => some (0x82, m.way, m.bytes, false)
  | .challenge m => some (0x83, m.way, m.bytes, true)
  | .keyExchange m => some (0xE4, m.way, m.bytes, true)
  | .finish m => some (0xE5, m.way, m.bytes, false)
  | .heartbeat m => some (0xE8, m.way, m.bytes, false)
  | .keyUpdate m => some (0xE9, m.way, m.bytes, false)
  | .endSession m => some (0xEC, m.way, m.bytes, false)
  | _ => none

/-- An answer of some bytes leaves the way its request came in: on the management port as given, or as OP 11 in pieces of at most 512
bytes on the fabric port; nothing else happens but the charges and, on the fabric, what the port keeps of what came in and what it sent. -/
def answered (s t : State) (way : Way) (o : MgmtOut) (bs : List Byte) : Prop :=
  match way with
  | .management => t.iod = { s.iod with mgmt := s.iod.mgmt ++ [o], snapshots := t.iod.snapshots, ns := t.iod.ns }
  | .fabric port dev => t.iod.mgmt = s.iod.mgmt ∧ (((s.iod.port port).state = 2 ∨ (s.iod.port port).state = 3) →
      ∃ ws, t.iod.sent = s.iod.sent ++ ws ∧ (ws.flatMap fun w => w.packet.payload) = bs ∧
        ∀ w, w ∈ ws → w.port = port ∧ w.packet.op = 11 ∧ w.packet.dst = dev ∧ w.packet.payload.length ≤ 512)

/-- Everything but the stimuli and the model's own counters is as after reset. -/
def asReset (s t : State) : Prop :=
  t.slots = State.reset.slots ∧ t.sites = [] ∧ t.banks = [] ∧ t.mem = [] ∧ t.turnstiles = [] ∧ t.objects = [] ∧ t.dies = [] ∧ t.keys = keysReset ∧
  t.cur = bootSlot ∧ t.inputs = s.inputs

end Sys2Proof.Claims

/-- Power: without it everything is lost; with it the part stands as after reset with its first stage verified, or not, and MR0 extended by
the image when it is. A cold reset keeps DRAM and the time; what else it keeps is the model's choice (log 37). While no stage is
verified no control-core slot starts. A slot that is stopped goes once it holds nothing: until then the stop waits, and a reservation it
holds may be taken from it after any number of turns, which is a free choice (log 52). Freezing stops the part until a thaw, which a part that tripped refuses; a debug read changes nothing. A
die at 105 degrees throttles the part, at 115 it trips, and below 100 on every die the clock comes back (R23, R278, R280, R284,
R289). That a record leaves on crossing 105 degrees alone is a reading (log 53). -/
def Obligations.PowerAndHeat : Prop :=
  (∀ (s : State) (image sig : List Byte), s.power = false →
    ∃ t, exec (.powerOn image sig) s = .next t ∧ Claims.asReset s t ∧ t.power = true ∧ t.iod.verified = Config.verifyFirstStage image sig ∧
      (t.iod.verified = true → tget 0 t.iod.mr 0 = extendMr 0 (Config.sha256 image)) ∧ (t.iod.verified = false → tget 0 t.iod.mr 0 = 0)) ∧
  (∀ (s : State) (image sig : List Byte), s.iod.verified = false →
    ∃ t, exec (.newFirstStage image sig) s = .next t ∧ t = { s with iod := t.iod } ∧ t.iod.verified = Config.verifyFirstStage image sig ∧
      (t.iod.verified = true → tget 0 t.iod.mr 0 = extendMr (tget 0 s.iod.mr 0) (Config.sha256 image))) ∧
  (∀ s : State, ∃ t, exec .powerRemoval s = .next t ∧ Claims.asReset s t ∧ t.power = false) ∧
  (∀ s : State, ∃ t, exec .coldReset s = .next t ∧ t.slots = State.reset.slots ∧ t.sites = [] ∧ t.banks = [] ∧ t.turnstiles = [] ∧ t.dies = [] ∧
    t.power = true ∧ t.iod.ns = s.iod.ns ∧ t.iod.accounts = [] ∧ ∀ k, k < dramEnd → t.byte k = s.byte k ∧ t.poisoned k = s.poisoned k) ∧
  (∀ (s : State) (sock n k : Nat),
    let r : SlotRef := { place := .ctl sock n, k := k }
    let x := s.slot r
    (x.status = .free → s.iod.verified = true → ∃ t, exec (.ccrunStart sock n k) s = .next t ∧
      t.slot r = { status := .ready, q := 1, g := if k = 0 then [] else [(4, BitVec.ofNat 64 k)], segs := [(1, socketSegment sock)] }) ∧
    (s.iod.verified = false → exec (.ccrunStart sock n k) s = .next s) ∧
    (x.status = .free → exec (.ccrunStop sock n k) s = .next s) ∧
    (x.status ≠ .free → s.slotHolds r = false → ∃ t, exec (.ccrunStop sock n k) s = .next t ∧ t.slot r = {} ∧ t.mem = s.mem ∧ t.work = s.work ∧
      (∀ v, x.resv = some v → tget [] t.resv v.key = (tget [] s.resv v.key).filter (· ≠ r)) ∧
      (∀ o p, x.pin = some (o, p) → (t.obj o).pins = (s.obj o).pins.erase p) ∧ (∀ d q, d < 8 → q ∈ (t.die d).reads → q.caller ≠ r) ∧
      ∀ p, slotKey p ≠ slotKey r → (∀ d j, slotKey p ≠ slotKey { place := .carousel d, k := j }) → t.slot p = s.slot p) ∧
    (x.status ≠ .free → s.slotHolds r = true → (∀ v, x.resv = some v → v.held = false) →
      exec (.ccrunStop sock n k) s = .next (s.post (.ccrunStop sock n k))) ∧
    (∀ v, x.status ≠ .free → x.resv = some v → v.held = true → (∀ ps, x.stage ≠ .granted ps) → exec (.ccrunStop sock n k) s = .next { s with
      draws := s.draws + 1
      work := s.work ++ (if Config.freeNat s.draws % 2 = 1 then [.reservationForceRelease r] else []) ++ [.ccrunStop sock n k] })) ∧
  (∀ s : State, exec .ccromRomoff s = .next { s with iod := { s.iod with romOff := true } }) ∧
  (∀ s : State, exec .frzAssert s = .next { s with iod := { s.iod with frozen := true } } ∧
    exec .thaw s = .next (if s.iod.tripped then s else { s with iod := { s.iod with frozen := false } })) ∧
  (∀ (s : State) (t : DebugTarget), exec (.debugRead t) s = .next
    (if s.iod.frozen then { s with iod := { s.iod with mgmt := s.iod.mgmt ++ [s.debugged t] } } else s)) ∧
  (∀ (s : State) (d : Nat) (c : Int), ∃ t, exec (.thermalReport d c) s = .next t ∧ t.slots = s.slots ∧ t.mem = s.mem ∧ (t.die d).hot = some c ∧
    (t.iod.throttled = (s.iod.throttled || decide (105 ≤ c))) ∧ (t.iod.frozen = (s.iod.frozen || decide (115 ≤ c))) ∧
    (t.iod.tripped = (s.iod.tripped || decide (115 ≤ c))) ∧
    t.iod.mgmt = s.iod.mgmt ++ (if 105 ≤ c ∧ (∀ h, (s.die d).hot = some h → h < 105) then [.thermal d c] else [])) ∧
  ∀ s : State, exec .thermalClockRestore s = .next (if s.cool then { s with iod := { s.iod with throttled := false } } else s)

/-- The part answers SPDM requests, on the management port or over the fabric as they came, with a signature where one is due, the
measurements MR0-MR7, and signed snapshots of an account's counters with the number of the snapshot, the time and the nonce; a
session on a fabric port gives it its key, and takes it away. What an answer holds beyond that, and the request that sets a
quantum, are the model's choice (logs 14, 38, 73). A checkpoint takes every context out and then sends its streams, one packet
each time on a port that is up; its end says whether they were lost (R281, R283, R285, R292). That a packet is one OP 5 of 64 bytes for one
line, that it is lost when no port is up, and that the contexts stay held, is the model's choice (log 34). -/
def Obligations.ManagementAndCheckpoints : Prop :=
  (∀ (s : State) (i : Instr) (code : Nat) (way : Way) (request : List Byte) (signed : Bool), Claims.spdmOf i = some (code, way, request, signed) →
    let bs := Config.spdmResponse code request s.draws
    let all := if signed then bs ++ Config.sign bs else bs
    ∃ t, exec i s = .next t ∧ t = { s with iod := t.iod, draws := s.draws + 1 } ∧ Claims.answered s t way (.answer all) all) ∧
  (∀ (s : State) (port dev : Nat) (request : List Byte),
    let x := s.iod.port port
    let keyed (code : Nat) (t : State) : Prop := if Config.spdmGranted code request (s.draws + 1) then
        (t.iod.port port).state = 2 ∧ (t.iod.port port).count = 0 ∧ (t.iod.port port).session = x.session + 1
      else (t.iod.port port).state = x.state ∧ (t.iod.port port).session = x.session
    x.state = 2 ∨ x.state = 3 →
    (∃ t, exec (.finish ⟨.fabric port dev, request⟩) s = .next t ∧ keyed 0xE5 t) ∧
    (∃ t, exec (.keyUpdate ⟨.fabric port dev, request⟩) s = .next t ∧ keyed 0xE9 t) ∧
    (∃ t, exec (.endSession ⟨.fabric port dev, request⟩) s = .next t ∧
      (t.iod.port port).state = if Config.spdmGranted 0xEC request (s.draws + 1) then 3 else x.state)) ∧
  (∀ (s : State) (way : Way) (request : List Byte), ∃ t bs, exec (.getMeasurements ⟨way, request⟩) s = .next t ∧
    t = { s with iod := t.iod, draws := s.draws + 1 } ∧
    Claims.answered s t way (.measurements ((List.range 8).map fun k => (k + 1, tget 0 s.iod.mr k)) (bs ++ Config.sign bs)) (bs ++ Config.sign bs)) ∧
  (∀ (s : State) (way : Way) (cls ns : Nat), exec (.vendorDefinedRequest way (.quantum cls ns)) s = .next
    (if way = .management ∧ cls < 4 then { s with iod := { s.iod with quanta := tset 0 s.iod.quanta cls ns } } else s)) ∧
  (∀ (s : State) (way : Way) (account : Nat) (nonce : List Byte), account < 256 → nonce.length = 32 →
    ∃ t, exec (.vendorDefinedRequest way (.snapshot account nonce)) s = .next t ∧ t.slots = s.slots ∧ t.mem = s.mem ∧ t.iod.snapshots = s.iod.snapshots + 1 ∧
      (way = .management → t.iod.accounts = s.iod.accounts) ∧ s.iod.ns ≤ t.iod.ns ∧
      let record := leBytes 8 (s.iod.devid.toNat % 2 ^ 16 + account * 2 ^ 16) ++ leBytes 8 (s.iod.snapshots + 1) ++ leBytes 8 t.iod.ns ++ nonce ++
        ((List.range 8).flatMap fun k => leBytes 8 (tget 0 s.iod.accounts (8 * account + k)).toNat) ++ List.replicate 8 0
      Claims.answered s t way (.answer (record ++ Config.sign record)) (record ++ Config.sign record)) ∧
  (∀ (s : State) (v : Dword), s.iod.ckptStatus = 1 →
    (s.loadedContexts = [] → ∃ t, exec (.checkpointGo v) s = .next t ∧ t.slots = s.slots ∧ t.mem = s.mem ∧
      (let ports := ((List.range 72).filter s.iod.portUp).take (v.extractLsb' 3 7).toNat
       (ports = [] → t.work = s.work ++ [.checkpointEnd true]) ∧
       (ports ≠ [] → t.iod.ckptSent = s.iod.ckptSent + 1 ∧
        (∃ hops, t.work = s.work ++ hops ++ (if s.iod.ckptSent + 1 < ckptPackets then [.checkpointGo v] else []) ∧
          ∀ h ∈ hops, ∃ a b, h = .packetHop a b) ∧
        ∃ port k bs, port ∈ ports ∧ t.iod.sent = s.iod.sent ++ [⟨port, k, bs⟩] ∧ k.op = 5 ∧ k.dst = (v.extractLsb' 10 16).toNat ∧ k.len = 64)) ∧
      ∀ n c, s.ctx n = some c → t.ctx n = some { c with held := !c.unloaded }) ∧
    ∀ lost, ∃ t, exec (.checkpointEnd lost) s = .next t ∧ t.iod.ckptStatus = (if lost then 3 else 2) ∧ t.slots = s.slots ∧ t.mem = s.mem) ∧
  ∀ (s : State) (v : Dword), s.iod.ckptStatus ≠ 1 → exec (.checkpointGo v) s = .next s ∧ ∀ lost, exec (.checkpointEnd lost) s = .next s

namespace Sys2Proof.Claims
open Sys2Proof.Machine

/-- Whether an event is a cycle of a link. -/
def isHop : Instr → Bool
  | .packetHop _ _ => true
  | _ => false

/-- The reply to a command of a host: OP 12 with the command's fields, a status, q15 and the result. -/
def replied (s t : State) (device f code socket seq status : Nat) (q15 : Bool) (tail : List Byte) : Prop :=
  ∀ port, s.iod.route device = some port → s.iod.portUp port = true →
    ∃ k bs, t.iod.sent = s.iod.sent ++ [⟨port, k, bs⟩] ∧ k.dst = device ∧ k.op = 12 ∧
      k.payload = leBytes 8 (3 + f % 2 ^ 8 * 2 ^ 8 + code * 2 ^ 16 + socket % 32 * 2 ^ 24 + seq % 2 ^ 32 * 2 ^ 32) ++ leBytes 8 status ++
        leBytes 8 q15.toNat ++ (tail ++ List.replicate 40 0).take 40

/-- Sender, function, code, socket, number, the value the table looks at, and whether an argument is bad, of a host's commands (R293, R295). -/
def commandIs (s : State) : Instr → Option (Nat × Nat × Nat × Nat × Nat × Dword × Bool)
  | .hostWake d f k n v => some (d, f, 1, k, n, v, decide (16 < k) || v.extractLsb' 18 46 != 0)
  | .hostBcmd d f k n v => some (d, f, 2, k, n, v, k == 0 || decide (8 < k))
  | .hostRtrim d f k n v => some (d, f, 3, k, n, v, v.extractLsb' 16 48 != 0)
  | .hostArm d f k n i r p t => some (d, f, 4, k, n, 0, armIll i r || t.extractLsb' 32 32 != 0 || (descPieces p.toNat).any s.piecePoisoned)
  | .hostDisarm d f k n i => some (d, f, 5, k, n, 0, decide (1024 ≤ i.toNat))
  | .hostMigc d f k n v => some (d, f, 6, k, n, v, decide (k < 9) || decide (16 < k))
  | .hostCkpt d f k n v => some (d, f, 7, k, n, v, false)
  | .hostTlbi d f k n v sc => some (d, f, 8, k, n, v, decide (2 < sc.toNat))
  | .hostPhysicalWrite d f k n pa bs => some (d, f, 9, k, n, 0, bs.length == 0 || decide (32 < bs.length) ||
      !(inMmio pa.toNat bs.length || (inDram pa.toNat bs.length && !s.homePoisoned (physPieces pa.toNat bs.length))))
  | .hostPhysicalRead d f k n pa len => some (d, f, 10, k, n, 0, len == 0 || decide (32 < len) ||
      !(inMmio pa.toNat len || (inDram pa.toNat len && !(physPieces pa.toNat len).any s.piecePoisoned)))
  | _ => none

end Sys2Proof.Claims

/-- A host's command is turned away with status 1 while its function is in hardware mode, from another host, without a session key, or
outside the table, and with status 2 for a function above 6 or a bad argument; it then changes nothing. Else it does what the
instruction or register it stands for does, and its reply says so: at once, or when what it waits for is done. An acknowledged event is gone; the
events of a function that no host acknowledges go to Penvis, and the function back to hardware mode (R292-R295). The order of these
checks, and that a descriptor at no DRAM counts as malformed, is the model's choice (log 39). That an acknowledgement counts only from the host and
port of its event, with its number and code, and what a timeout hands back, is a reading (log 55). -/
def Obligations.HostCommands : Prop :=
  (∀ (s : State) (i : Instr) (d f code k n : Nat) (v : Dword) (bad : Bool), Claims.commandIs s i = some (d, f, code, k, n, v, bad) →
    let refused (st : Nat) : Prop := ∃ t, exec i s = .next t ∧ t = { s with iod := t.iod } ∧ t.iod.hostWaits = s.iod.hostWaits ∧
      Claims.replied s t d f code k n st false []
    (6 < f → refused 2) ∧
    (f ≤ 6 → s.iod.duty.getLsbD f = false ∨ (tget 0 s.iod.dutyHost f).toNat % 2 ^ 16 ≠ d ∨ s.iod.portUp (s.iod.portOf d) = false ∨
      commandAllowed f code v = false → refused 1) ∧
    (s.commandRefused d f code v = none → bad = true → refused 2)) ∧
  (∀ (s : State) (d f k n : Nat) (v : Dword), s.commandRefused d f 1 v = none → k ≤ 16 → v.extractLsb' 18 46 = 0 →
    ∃ t, exec (.hostWake d f k n v) s = .next t ∧ t = { s.wakeAt (some k) v with iod := t.iod } ∧ (v.getLsbD 17 = false → Claims.replied s t d f 1 k n 0 false [])) ∧
  (∀ (s : State) (d f k n : Nat) (v : Dword), s.commandRefused d f 2 v = none → 0 < k → k ≤ 8 →
    ∃ t, exec (.hostBcmd d f k n v) s = .next t ∧ t = { s.bcmdWrite (k - 1) v with iod := t.iod } ∧ Claims.replied s t d f 2 k n 0 false []) ∧
  (∀ (s : State) (d f k n : Nat) (v : Dword), s.commandRefused d f 3 v = none → v.toNat < 2 ^ 16 →
    let o := v.toNat % 2 ^ 8
    match s.trimDies o (v.toNat / 2 ^ 8) with
    | none => ∃ t, exec (.hostRtrim d f k n v) s = .next t ∧ t = { s with iod := t.iod } ∧ Claims.replied s t d f 3 k n 0 false []
    | some [] => ∃ t, exec (.hostRtrim d f k n v) s = .next t ∧ (t.obj o).trim = (s.obj o).trimTo ∧ Claims.replied s t d f 3 k n 0 true []
    | some ds => ∃ t, exec (.hostRtrim d f k n v) s = .next t ∧
        t.work = s.work ++ (ds.map (fun d => .replicaResync o d) ++ ((replDies (s.obj o).w0).filter (!ds.contains ·)).map .carouselApply) ∧
        t.iod.hostWaits = s.iod.hostWaits ++ [⟨d, f, 3, k, n, .trim o ds⟩]) ∧
  (∀ (s : State) (d f k n : Nat) (i r p g : Dword), s.commandRefused d f 4 0 = none → armIll i r = false → g.toNat < 2 ^ 32 →
    (descPieces p.toNat).any s.piecePoisoned = false →
    ∃ t e, exec (.hostArm d f k n i r p g) s = .next t ∧ e = s.armErr i.toNat (r.extractLsb' 0 32) p.toNat g.toNat ∧
      Claims.replied s t d f 4 k n 0 (e == 0) (leBytes 8 e) ∧
      t.tst i.toNat = (if e = 0 then { state := 1, gate := (s.readDesc p.toNat).gate, tag := g.toNat, rect := r.extractLsb' 0 32,
                                       desc := some (s.readDesc p.toNat) }
        else { s.tst i.toNat with err := e })) ∧
  (∀ (s : State) (d f k n : Nat) (i : Dword), s.commandRefused d f 5 0 = none → i.toNat < 1024 →
    ((s.tst i.toNat).state = 0 → ∃ t, exec (.hostDisarm d f k n i) s = .next t ∧ t = { s with iod := t.iod } ∧
      Claims.replied s t d f 5 k n 0 false []) ∧
    ((s.tst i.toNat).state ≠ 0 → ∃ t, exec (.hostDisarm d f k n i) s = .next t ∧ (t.tst i.toNat).state = 3 ∧
      ⟨d, f, 5, k, n, .disarm i.toNat ((s.tst i.toNat).state != 3)⟩ ∈ t.iod.hostWaits)) ∧
  (∀ (s : State) (d f k n : Nat) (v : Dword), s.commandRefused d f 6 v = none → 9 ≤ k → k ≤ 16 →
    ∃ t, exec (.hostMigc d f k n v) s = .next t ∧ t = { s.migcWrite (k - 9) v (v.getLsbD 0) with iod := t.iod } ∧
      Claims.replied s t d f 6 k n 0 false []) ∧
  (∀ (s : State) (d f k n : Nat) (v : Dword), s.commandRefused d f 7 v = none → s.iod.ckptStatus ≠ 1 →
    ∃ t, exec (.hostCkpt d f k n v) s = .next t ∧ t.iod.ckptStatus = (if v.getLsbD 0 then 1 else s.iod.ckptStatus) ∧
      t.work = s.work ++ (if v.getLsbD 0 then [.checkpointGo v] else []) ∧ Claims.replied s t d f 7 k n 0 false []) ∧
  (∀ (s : State) (d f k n : Nat) (v sc : Dword), s.commandRefused d f 8 v = none → sc.toNat ≤ 2 →
    ∃ t, exec (.hostTlbi d f k n v sc) s = .next t ∧ t.work = s.work ++ (List.range 8).map (fun d => .tlbiDieAck d (s.nextId + 1)) ∧
      t.iod.hostWaits = s.iod.hostWaits ++ [⟨d, f, 8, k, n, .tlbi (s.nextId + 1)⟩]) ∧
  (∀ (s : State) (d f k n : Nat) (pa : Dword) (bs : List Byte), s.commandRefused d f 9 0 = none → 0 < bs.length → bs.length ≤ 32 →
    inDram pa.toNat bs.length = true → s.homePoisoned (physPieces pa.toNat bs.length) = false →
    ∃ t, exec (.hostPhysicalWrite d f k n pa bs) s = .next t ∧ Claims.replied s t d f 9 k n 0 false [] ∧
      t.mem = ((physPieces pa.toNat bs.length).foldl (fun s p => s.writePiece p bs) s).mem) ∧
  (∀ (s : State) (d f k n len : Nat) (pa : Dword), s.commandRefused d f 10 0 = none → 0 < len → len ≤ 32 →
    inDram pa.toNat len = true → (physPieces pa.toNat len).any s.piecePoisoned = false →
    ∃ t, exec (.hostPhysicalRead d f k n pa len) s = .next t ∧ t.mem = s.mem ∧
      Claims.replied s t d f 10 k n 0 false ((physPieces pa.toNat len).flatMap s.readPiece)) ∧
  (∀ (s : State) (port d n code : Nat), ∃ t, exec (.hostEventAck port d n code) s = .next t ∧ t = { s with iod := t.iod } ∧
    ∀ e, e ∈ t.iod.events ↔ e ∈ s.iod.events ∧ ¬ (e.port = port ∧ e.host = d ∧ e.seq = n ∧ e.code = code)) ∧
  ∀ (s : State) (f : Nat) (e : DutyEvent) (rest : List DutyEvent), s.iod.events.filter (fun e => e.f == f) = e :: rest → f < 64 →
    ∃ t, exec (.dutyHostTimeout f) s = .next t ∧ t.iod.duty.getLsbD f = false ∧ t.iod.events = s.iod.events.filter (fun e => e.f != f) ∧
      t.iod.mgmt = s.iod.mgmt ++ [.duty f e.host] ∧
      t.work.filter (fun w => !Claims.isHop w) = s.work.filter (fun w => !Claims.isHop w) ++
        (e :: rest).map fun e => .messageArrival (placeKey (.ctl (dutyDest e) 0)) 0 0 ⟨dutyHeader e.code e.socket, e.payload⟩ none

/-- A write of a register has the register's effect: an owner root and DUTY take their fields; of a bank's state and GEN a write changes
nothing, and CE takes its byte, on a usable core; a cell of a core map
is set once, and only while no armed launch holds its core, which CMAPST then reports until it is cleared. A memory behind a window takes its
byte, and an address that is no register's, within the MMIO region or outside, takes nothing, and reads zero within it; PASG reads as the socket's number, kind and stepping, and is not written
(R2, R12, R16-R18, R20, R127, R134, R293, R388). -/
def Obligations.RegisterWrites : Prop :=
  (∀ (s : State) (pa : Nat) (data : List Byte), isMmio pa = false → exec (.mmioRegisterWrite pa data) s = .next s) ∧
  (∀ (s : State) (pa : Nat) (data : List Byte),
    (∀ i, i < data.length → regAt (mmioSock (pa + i)) (pa + i - mmioBase (mmioSock (pa + i))) = none) →
    exec (.mmioRegisterWrite pa data) s = .next s ∧ s.mmioRead pa data.length = (List.replicate data.length 0, s)) ∧
  (∀ (s : State) (d n : Nat) (v : Dword), d < 8 → n < 8192 →
    let b := n % 8 * 2 ^ 13 + d * 2 ^ 10 + n / 8
    ∃ t, exec (.mmioRegisterWrite (mmioBase (d + 1) + 0x100000 + 8 * n) (leBytes 8 v.toNat)) s = .next t ∧ t = { s with banks := t.banks } ∧
      (∀ m, m ≠ b → t.bank m = s.bank m) ∧
      t.bank b = if s.dead (b % 2 ^ 13) then s.bank b else { s.bank b with ce := v.extractLsb' 56 8 }) ∧
  (∀ (s : State) (k : Nat) (data : List Byte), k ≤ 16 → data.length ≤ 4 →
    (s.mmioRead (mmioBase k) 4).1 = [BitVec.ofNat 8 (k + (if k = 0 then 0 else if k ≤ 8 then 0x20 else 0x40)), 0x01, 0, 0] ∧
    exec (.mmioRegisterWrite (mmioBase k) data) s = .next s) ∧
  (∀ (s : State) (d k : Nat) (v : Dword), d < 8 → k < 64 →
    ∃ t, exec (.mmioRegisterWrite (mmioBase (d + 1) + 0x6000 + 8 * k) (leBytes 8 v.toNat)) s = .next t ∧ t = { s with dies := t.dies } ∧
      (∀ j, j ≠ k → tget 0 (t.die d).oroot j = tget 0 (s.die d).oroot j) ∧ tget 0 (t.die d).oroot k = v &&& 0xFFFFFFFF0001FFFF) ∧
  (∀ (s : State) (v : Dword), ∃ t, exec (.mmioRegisterWrite (mmioBase 0 + 0xE0000) (leBytes 8 v.toNat)) s = .next t ∧
    t = { s with iod := { s.iod with duty := v &&& 0x7F } }) ∧
  (∀ (s : State) (d c o : Nat) (b : Byte), d < 8 → c < 1024 → o < 2048 →
    ∃ t, exec (.mmioRegisterWrite (mmioBase (d + 1) + 0x200000 + 0x800 * c + o) [b]) s = .next t ∧ t = { s with mem := t.mem } ∧
      t.byte (segStoreKey (1024 * d + c) o) = b ∧ ∀ k, k ≠ segStoreKey (1024 * d + c) o → t.byte k = s.byte k) ∧
  (∀ (s : State) (d row c : Nat), d < 8 → row < 32 → c < 32 →
    let core := 1024 * d + 32 * row + c
    s.dead core = false →
    ∃ t, exec (.cmapDeadSet d row ((1 : Word) <<< c)) s = .next t ∧ t = { s with dies := t.dies } ∧
      (s.armedCore core = false → t.dead core = true ∧ (t.die d).cmapst = (s.die d).cmapst) ∧
      (s.armedCore core = true → t.dead core = false ∧ (t.die d).cmapst = BitVec.ofNat 32 (1 + core * 2))) ∧
  ∀ (s : State) (d : Nat), ∃ t, exec (.cmapstRefusedClear d) s = .next t ∧ t = { s with dies := t.dies } ∧
    (t.die d).cmapst = (s.die d).cmapst &&& ~~~1 ∧ ∀ e, e ≠ d → t.die e = s.die e
/-! The whole machine. -/

/-- Decoding the words of a well-formed instruction gives it back: every instruction, every operand at every value its encoding
admits (R38-R58). So do its bytes, with what follows them left over. -/
def Obligations.DecodeEncode : Prop :=
  ∀ (i : Instr) (f : Fields) (w1 : Word), i.wf = true → encodeFields i = some (f, w1) →
    decode f.pack w1 = .ok i ∧ ∀ rest, decodeBytes (encodeBytes i ++ rest) = .ok (i, rest)

/-- Words that the manual writes out decode to the instructions it gives them for (R38, R42-R45, R50, R53-R57). -/
def Obligations.DecodedWords : Prop :=
  decode 0x00000098 0 = .ok (.nop 0) ∧ decode 0x00000000 0 = .ok (.add 0 false 0 0 0) ∧ decode 0x01862400 0 = .ok (.rot 0 false 3 1 2) ∧
  decode 0x09A42600 0 = .ok (.min 0 true false 2 1 3) ∧ decode 0x0FF04404 0 = .ok (.addi 0 (-8) 2 2) ∧
  decode 0x04042720 0 = .ok (.fadd 0 .bf16 2 1 3) ∧ decode 0x20006079 0 = .ok (.nput 2 .east 3) ∧ decode 0x0002A081 0 = .ok (.vld 0 0 0 1 5 0) ∧
  decode 0x000004A1 0 = .ok (.mzero 0 2) ∧ decode 0x0000000F 0xFFFFFFFC = .ok (.jmp 0 (-4)) ∧
  decode 0x000CA84B 0xD0700010 = .ok (.arm 0 6 5 4 0xD0700010) ∧ decode 0x0000185B 0 = .ok (.rtrim 0 12)

/-- A step runs the decoded instruction. When no stimulus may act, no parked slot goes on first and it is the current slot's turn to
issue, the step is exec of the instruction that the slot fetches, after which a streamed slot's buffer takes words and the next slot
has its turn; a streamed slot's PC is first the address of its word, and a far word is read before it is decoded (R290). The order of
turns is the model's choice (log 3). A slot whose event has come goes on with its instruction (R69). In local mode, outside a replayed frame, what is fetched from a core store is what the bytes at PC
decode to, or the reason they decode to nothing; a prefix after a prefix is no instruction (R4, R38, R41, R64, R65, R78). -/
def Obligations.StepRunsDecoded : Prop :=
  (∀ (s : State) (i : Instr) (pc : BitVec 16), s.power = true → s.iod.frozen = false → takeInput s.inputMay s.inputs = none →
    s.resumes = false ∨ s.firstDue = none → s.evTurn = false ∨ s.work = [] → s.issuesAt s.cur = true →
    (s.slot s.cur).far = [] ∨ (s.slot s.cur).since ≠ 0 →
    let u : State := { s with evTurn := true, resumes := true }
    let goes (o : Host.Outcome State Fault Refusal) : Prop := step s = after (fun t => after (fun t => .next t.rotate) (turnStream s.cur t)) o
    (s.fetch s.cur = .ins i pc → goes (exec i (u.atWord s.cur pc))) ∧
    ∀ off p va t, u.fetch s.cur = .far off p va → u.readFar s.cur off p va = .got t → t.fetch t.cur = .ins i pc →
      goes (exec i (t.atWord t.cur pc))) ∧
  (∀ (s : State) (i : Instr) (pc : BitVec 16) (r : SlotRef), s.power = true → s.iod.frozen = false → takeInput s.inputMay s.inputs = none →
    s.resumes = true → s.firstDue = some r → (s.slot r).status = .ready → (s.slot r).since ≠ 0 →
    (({ s with cur := r } : State).fetch r = .ins i pc →
      step s = after (fun t => .next { t with cur := s.cur, resumes := (t.slot r).since == 0 }) (exec i (({ s with cur := r } : State).atWord r pc)))) ∧
  ∀ (s : State) (r : SlotRef),
    let x := s.slot r
    let bytes := s.bytes (storeKey (placeKey r.place) x.pc.toNat) 8
    (∀ va, x.stage ≠ .fetchFailed va) → x.rpt = none → x.streamed = false → x.pc.toNat % 4 = 0 →
    (∀ sock n, r.place = .ctl sock n → x.cfs = 0 ∧ (sock = 0 → n = 0 → s.iod.romOff = true)) →
    (∀ i rest, decodeBytes bytes = .ok (i, rest) → (x.pc = 0xFFFC → rest.length = 4) → (x.pre ≠ none → ∀ a b c, i ≠ .pfx a b c) →
      s.fetch r = .ins i x.pc) ∧
    (∀ e, decodeBytes bytes = .error e → x.pc ≠ 0xFFFC → x.pre = none →
      s.fetch r = .ins (.notAnInstruction (BitVec.ofNat 32 (s.num (storeKey (placeKey r.place) x.pc.toNat) 4)) e) x.pc) ∧
    (x.pre ≠ none → s.num (storeKey (placeKey r.place) x.pc.toNat) 4 % 4 = 2 →
      s.fetch r = .ins (.notAnInstruction (BitVec.ofNat 32 (s.num (storeKey (placeKey r.place) x.pc.toNat) 4)) .secondPrefix) x.pc)

/-- An instruction whose guard is false, and that does not read it as a condition, only goes on: it writes nothing, does not park and raises no
trap but those of R41 steps 1-4 (and a method's budget, R220), which come before the guard (R40, R41; frame). -/
def Obligations.GuardSkips : Prop :=
  ∀ (i : Instr) (s : State) (f : Fields) (w1 : Word), encodeFields i = some (f, w1) → f.ls ≠ 2 →
    let x := s.slot s.cur
    x.capturing = none → earlyTrap x i = none → x.getQ f.q = false → readsGuard x i = false →
    ∃ t, exec i s = .next t ∧ s.onlySlot t (s.past i s.now)

/-- What reset leaves: slot 0 of I/O-die CC0 is ready at offset 0 with every g, v and m register zero but m0, only q0 true, its control
registers at their resets, s1 as R288 gives and WSP = WLIM = 0; every other slot is stopped, the boot ROM is mapped, nothing is attached, the
accounts, the measurement registers, DUTY and DEVID are zero, and no turnstile is armed (R71, R102, R123, R280, R282, R288, R289). That every
byte reads zero is the model's choice (log 1), and so are the registers whose reset value no rule states, TEN and the trap registers
among them (log 2). Memory is in its canonical form. -/
def Obligations.ResetContents : Prop :=
  let s := State.reset
  let x := s.slot bootSlot
  s.cur = bootSlot ∧ x.status = .ready ∧ x.pc = 0 ∧ x.streamed = false ∧ (∀ n, x.getG n = 0) ∧ (∀ n, x.getV n = 0) ∧
  (∀ n, x.getM n = if n = 0 then -1 else 0) ∧ (∀ n, x.getQ n = (n == 0)) ∧ x.getS 1 = socketSegment 0 ∧ x.wsp = 0 ∧ x.wlim = 0 ∧ x.ten = 0 ∧
  x.tvec = 0 ∧ x.tcause = 0 ∧ x.taddr = 0 ∧ x.tepc = 0 ∧ x.tinfo = 0 ∧ x.rnd = 0 ∧ x.flags = 0 ∧
  (∀ r, slotKey r ≠ slotKey bootSlot → (s.slot r).status = .free) ∧ s.iod.romOff = false ∧
  (∀ c w, (s.entry c w).att = false ∧ (s.entry c w).clm = false) ∧ (∀ b, (s.bank b).att = false ∧ (s.bank b).gen = 0) ∧
  (∀ k, tget 0 s.iod.accounts k = 0) ∧ (∀ k, tget 0 s.iod.mr k = 0) ∧ s.iod.duty = 0 ∧ s.iod.devid = 0 ∧ (∀ n, (s.tst n).state = 0) ∧
  (∀ k, s.byte k = 0) ∧ s.memOk

/-- Every step keeps the canonical form of memory: addresses strictly rising and no listed byte equal to what an unlisted one reads as. -/
def Obligations.MemoryStaysCanonical : Prop :=
  ∀ s t : State, s.memOk → step s = .next t → t.memOk

/-- The part is little-endian throughout. The byte at the lowest address of a multi-byte value in a bank, in the core store or in DRAM holds
bits [7:0] of that value. Of the two words of a 64-bit instruction, word0 lies at the lower address, and its bits [1:0] are the length
selector (R4). -/
def Obligations.LittleEndian : Prop :=
  (∀ (s : State) (k n v i : Nat), i < n → (s.setBytes k (leBytes n v)).byte (k + i) = BitVec.ofNat 8 (v / 2 ^ (8 * i))) ∧
  (∀ (s : State) (k n i : Nat), i < n → BitVec.ofNat 8 (s.num k n / 2 ^ (8 * i)) = s.byte (k + i)) ∧
  ∀ (w0 w1 : Word) (i : Instr), w0.extractLsb' 0 2 = 3 → decode w0 w1 = .ok i →
    ∀ rest, decodeBytes (leBytes 4 w0.toNat ++ leBytes 4 w1.toNat ++ rest) = .ok (i, rest)
end

