-- ==== Sys2Proof/Laws/Exec.lean ====
section
/-! SUPPORT. What the dispatch of each instruction is: a direct call of its meaning. -/
namespace Sys2Proof.Machine

theorem exec_pfx x1 x2 x3 (s : State) : exec (.pfx x1 x2 x3) s = execPfx x1 x2 x3 s := rfl
theorem exec_add x1 x2 x3 x4 x5 (s : State) : exec (.add x1 x2 x3 x4 x5) s = execAdd x1 x2 x3 x4 x5 s := rfl
theorem exec_sub x1 x2 x3 x4 x5 (s : State) : exec (.sub x1 x2 x3 x4 x5) s = execSub x1 x2 x3 x4 x5 s := rfl
theorem exec_mul x1 x2 x3 x4 x5 (s : State) : exec (.mul x1 x2 x3 x4 x5) s = execMul x1 x2 x3 x4 x5 s := rfl
theorem exec_mulh x1 x2 x3 x4 x5 x6 (s : State) : exec (.mulh x1 x2 x3 x4 x5 x6) s = execMulh x1 x2 x3 x4 x5 x6 s := rfl
theorem exec_div x1 x2 x3 x4 x5 x6 (s : State) : exec (.div x1 x2 x3 x4 x5 x6) s = execDiv x1 x2 x3 x4 x5 x6 s := rfl
theorem exec_rem x1 x2 x3 x4 x5 x6 (s : State) : exec (.rem x1 x2 x3 x4 x5 x6) s = execRem x1 x2 x3 x4 x5 x6 s := rfl
theorem exec_and x1 x2 x3 x4 (s : State) : exec (.and x1 x2 x3 x4) s = execAnd x1 x2 x3 x4 s := rfl
theorem exec_or x1 x2 x3 x4 (s : State) : exec (.or x1 x2 x3 x4) s = execOr x1 x2 x3 x4 s := rfl
theorem exec_xor x1 x2 x3 x4 (s : State) : exec (.xor x1 x2 x3 x4) s = execXor x1 x2 x3 x4 s := rfl
theorem exec_shl x1 x2 x3 x4 x5 (s : State) : exec (.shl x1 x2 x3 x4 x5) s = execShl x1 x2 x3 x4 x5 s := rfl
theorem exec_shr x1 x2 x3 x4 x5 (s : State) : exec (.shr x1 x2 x3 x4 x5) s = execShr x1 x2 x3 x4 x5 s := rfl
theorem exec_sha x1 x2 x3 x4 x5 (s : State) : exec (.sha x1 x2 x3 x4 x5) s = execSha x1 x2 x3 x4 x5 s := rfl
theorem exec_rot x1 x2 x3 x4 x5 (s : State) : exec (.rot x1 x2 x3 x4 x5) s = execRot x1 x2 x3 x4 x5 s := rfl
theorem exec_min x1 x2 x3 x4 x5 x6 (s : State) : exec (.min x1 x2 x3 x4 x5 x6) s = execMin x1 x2 x3 x4 x5 x6 s := rfl
theorem exec_max x1 x2 x3 x4 x5 x6 (s : State) : exec (.max x1 x2 x3 x4 x5 x6) s = execMax x1 x2 x3 x4 x5 x6 s := rfl
theorem exec_sel x1 x2 x3 x4 (s : State) : exec (.sel x1 x2 x3 x4) s = execSel x1 x2 x3 x4 s := rfl
theorem exec_clz x1 x2 x3 x4 (s : State) : exec (.clz x1 x2 x3 x4) s = execClz x1 x2 x3 x4 s := rfl
theorem exec_popc x1 x2 x3 x4 (s : State) : exec (.popc x1 x2 x3 x4) s = execPopc x1 x2 x3 x4 s := rfl
theorem exec_mad x1 x2 x3 x4 x5 (s : State) : exec (.mad x1 x2 x3 x4 x5) s = execMad x1 x2 x3 x4 x5 s := rfl
theorem exec_mov x1 x2 x3 (s : State) : exec (.mov x1 x2 x3) s = execMov x1 x2 x3 s := rfl
theorem exec_ext x1 x2 x3 x4 (s : State) : exec (.ext x1 x2 x3 x4) s = execExt x1 x2 x3 x4 s := rfl
theorem exec_ins x1 x2 x3 x4 (s : State) : exec (.ins x1 x2 x3 x4) s = execIns x1 x2 x3 x4 s := rfl
theorem exec_addi x1 x2 x3 x4 (s : State) : exec (.addi x1 x2 x3 x4) s = execAddi x1 x2 x3 x4 s := rfl
theorem exec_andi x1 x2 x3 x4 (s : State) : exec (.andi x1 x2 x3 x4) s = execAndi x1 x2 x3 x4 s := rfl
theorem exec_ori x1 x2 x3 x4 (s : State) : exec (.ori x1 x2 x3 x4) s = execOri x1 x2 x3 x4 s := rfl
theorem exec_xori x1 x2 x3 x4 (s : State) : exec (.xori x1 x2 x3 x4) s = execXori x1 x2 x3 x4 s := rfl
theorem exec_cmpi x1 x2 x3 x4 x5 (s : State) : exec (.cmpi x1 x2 x3 x4 x5) s = execCmpi x1 x2 x3 x4 x5 s := rfl
theorem exec_cmp x1 x2 x3 x4 x5 x6 (s : State) : exec (.cmp x1 x2 x3 x4 x5 x6) s = execCmp x1 x2 x3 x4 x5 x6 s := rfl
theorem exec_qand x1 x2 x3 x4 (s : State) : exec (.qand x1 x2 x3 x4) s = execQand x1 x2 x3 x4 s := rfl
theorem exec_qor x1 x2 x3 x4 (s : State) : exec (.qor x1 x2 x3 x4) s = execQor x1 x2 x3 x4 s := rfl
theorem exec_qxor x1 x2 x3 x4 (s : State) : exec (.qxor x1 x2 x3 x4) s = execQxor x1 x2 x3 x4 s := rfl
theorem exec_qnot x1 x2 x3 (s : State) : exec (.qnot x1 x2 x3) s = execQnot x1 x2 x3 s := rfl
theorem exec_ldI8 x1 x2 x3 x4 x5 (s : State) : exec (.ldI8 x1 x2 x3 x4 x5) s = execLdI8 x1 x2 x3 x4 x5 s := rfl
theorem exec_ldI16 x1 x2 x3 x4 x5 (s : State) : exec (.ldI16 x1 x2 x3 x4 x5) s = execLdI16 x1 x2 x3 x4 x5 s := rfl
theorem exec_ldI32 x1 x2 x3 x4 x5 (s : State) : exec (.ldI32 x1 x2 x3 x4 x5) s = execLdI32 x1 x2 x3 x4 x5 s := rfl
theorem exec_ldI64 x1 x2 x3 x4 x5 (s : State) : exec (.ldI64 x1 x2 x3 x4 x5) s = execLdI64 x1 x2 x3 x4 x5 s := rfl
theorem exec_ldN8 x1 x2 x3 x4 x5 (s : State) : exec (.ldN8 x1 x2 x3 x4 x5) s = execLdN8 x1 x2 x3 x4 x5 s := rfl
theorem exec_ldN16 x1 x2 x3 x4 x5 (s : State) : exec (.ldN16 x1 x2 x3 x4 x5) s = execLdN16 x1 x2 x3 x4 x5 s := rfl
theorem exec_ldN32 x1 x2 x3 x4 x5 (s : State) : exec (.ldN32 x1 x2 x3 x4 x5) s = execLdN32 x1 x2 x3 x4 x5 s := rfl
theorem exec_ldLong x1 x2 x3 x4 x5 x6 (s : State) : exec (.ldLong x1 x2 x3 x4 x5 x6) s = execLdLong x1 x2 x3 x4 x5 x6 s := rfl
theorem exec_st x1 x2 x3 x4 x5 x6 (s : State) : exec (.st x1 x2 x3 x4 x5 x6) s = execSt x1 x2 x3 x4 x5 x6 s := rfl
theorem exec_stLong x1 x2 x3 x4 x5 x6 (s : State) : exec (.stLong x1 x2 x3 x4 x5 x6) s = execStLong x1 x2 x3 x4 x5 x6 s := rfl
theorem exec_lrw x1 x2 x3 x4 x5 (s : State) : exec (.lrw x1 x2 x3 x4 x5) s = execLrw x1 x2 x3 x4 x5 s := rfl
theorem exec_sch x1 x2 x3 x4 x5 (s : State) : exec (.sch x1 x2 x3 x4 x5) s = execSch x1 x2 x3 x4 x5 s := rfl
theorem exec_rrel x1 x2 x3 x4 (s : State) : exec (.rrel x1 x2 x3 x4) s = execRrel x1 x2 x3 x4 s := rfl
theorem exec_aadd x1 x2 x3 x4 x5 (s : State) : exec (.aadd x1 x2 x3 x4 x5) s = execAadd x1 x2 x3 x4 x5 s := rfl
theorem exec_aand x1 x2 x3 x4 x5 (s : State) : exec (.aand x1 x2 x3 x4 x5) s = execAand x1 x2 x3 x4 x5 s := rfl
theorem exec_aor x1 x2 x3 x4 x5 (s : State) : exec (.aor x1 x2 x3 x4 x5) s = execAor x1 x2 x3 x4 x5 s := rfl
theorem exec_axor x1 x2 x3 x4 x5 (s : State) : exec (.axor x1 x2 x3 x4 x5) s = execAxor x1 x2 x3 x4 x5 s := rfl
theorem exec_amin x1 x2 x3 x4 x5 (s : State) : exec (.amin x1 x2 x3 x4 x5) s = execAmin x1 x2 x3 x4 x5 s := rfl
theorem exec_amax x1 x2 x3 x4 x5 (s : State) : exec (.amax x1 x2 x3 x4 x5) s = execAmax x1 x2 x3 x4 x5 s := rfl
theorem exec_axch x1 x2 x3 x4 x5 (s : State) : exec (.axch x1 x2 x3 x4 x5) s = execAxch x1 x2 x3 x4 x5 s := rfl
theorem exec_acas x1 x2 x3 x4 x5 x6 x7 (s : State) : exec (.acas x1 x2 x3 x4 x5 x6 x7) s = execAcas x1 x2 x3 x4 x5 x6 x7 s := rfl
theorem exec_br x1 x2 (s : State) : exec (.br x1 x2) s = execBr x1 x2 s := rfl
theorem exec_call x1 x2 (s : State) : exec (.call x1 x2) s = execCall x1 x2 s := rfl
theorem exec_jmpr x1 x2 (s : State) : exec (.jmpr x1 x2) s = execJmpr x1 x2 s := rfl
theorem exec_jmp x1 x2 (s : State) : exec (.jmp x1 x2) s = execJmp x1 x2 s := rfl
theorem exec_ret x1 (s : State) : exec (.ret x1) s = execRet x1 s := rfl
theorem exec_loop x1 x2 x3 (s : State) : exec (.loop x1 x2 x3) s = execLoop x1 x2 x3 s := rfl
theorem exec_rpt x1 x2 x3 x4 (s : State) : exec (.rpt x1 x2 x3 x4) s = execRpt x1 x2 x3 x4 s := rfl
theorem exec_nop x1 (s : State) : exec (.nop x1) s = execNop x1 s := rfl
theorem exec_trap x1 x2 (s : State) : exec (.trap x1 x2) s = execTrap x1 x2 s := rfl
theorem exec_tret x1 (s : State) : exec (.tret x1) s = execTret x1 s := rfl
theorem exec_yield x1 (s : State) : exec (.yield x1) s = execYield x1 s := rfl
theorem exec_quit x1 (s : State) : exec (.quit x1) s = execQuit x1 s := rfl
theorem exec_vote x1 x2 x3 x4 (s : State) : exec (.vote x1 x2 x3 x4) s = execVote x1 x2 x3 x4 s := rfl
theorem exec_getc x1 x2 x3 (s : State) : exec (.getc x1 x2 x3) s = execGetc x1 x2 x3 s := rfl
theorem exec_setc x1 x2 x3 (s : State) : exec (.setc x1 x2 x3) s = execSetc x1 x2 x3 s := rfl
theorem exec_sets x1 x2 x3 x4 (s : State) : exec (.sets x1 x2 x3 x4) s = execSets x1 x2 x3 x4 s := rfl
theorem exec_recv x1 x2 x3 (s : State) : exec (.recv x1 x2 x3) s = execRecv x1 x2 x3 s := rfl
theorem exec_swait x1 x2 x3 (s : State) : exec (.swait x1 x2 x3) s = execSwait x1 x2 x3 s := rfl
theorem exec_sadd x1 x2 x3 (s : State) : exec (.sadd x1 x2 x3) s = execSadd x1 x2 x3 s := rfl
theorem exec_sset x1 x2 x3 (s : State) : exec (.sset x1 x2 x3) s = execSset x1 x2 x3 s := rfl
theorem exec_saddLong x1 x2 x3 x4 (s : State) : exec (.saddLong x1 x2 x3 x4) s = execSaddLong x1 x2 x3 x4 s := rfl
theorem exec_bara x1 x2 x3 (s : State) : exec (.bara x1 x2 x3) s = execBara x1 x2 x3 s := rfl
theorem exec_barw x1 x2 x3 (s : State) : exec (.barw x1 x2 x3) s = execBarw x1 x2 x3 s := rfl
theorem exec_fence x1 x2 (s : State) : exec (.fence x1 x2) s = execFence x1 x2 s := rfl
theorem exec_time x1 x2 (s : State) : exec (.time x1 x2) s = execTime x1 x2 s := rfl
theorem exec_pop x1 x2 x3 (s : State) : exec (.pop x1 x2 x3) s = execPop x1 x2 x3 s := rfl
theorem exec_push x1 x2 x3 (s : State) : exec (.push x1 x2 x3) s = execPush x1 x2 x3 s := rfl
theorem exec_atch x1 x2 x3 (s : State) : exec (.atch x1 x2 x3) s = execAtch x1 x2 x3 s := rfl
theorem exec_dtch x1 x2 x3 (s : State) : exec (.dtch x1 x2 x3) s = execDtch x1 x2 x3 s := rfl
theorem exec_hovr x1 x2 x3 x4 x5 (s : State) : exec (.hovr x1 x2 x3 x4 x5) s = execHovr x1 x2 x3 x4 x5 s := rfl
theorem exec_hovrNotice x1 x2 x3 x4 x5 x6 (s : State) : exec (.hovrNotice x1 x2 x3 x4 x5 x6) s = execHovrNotice x1 x2 x3 x4 x5 x6 s := rfl
theorem exec_bqry x1 x2 x3 (s : State) : exec (.bqry x1 x2 x3) s = execBqry x1 x2 x3 s := rfl
theorem exec_wake x1 x2 (s : State) : exec (.wake x1 x2) s = execWake x1 x2 s := rfl
theorem exec_tlbi x1 x2 x3 (s : State) : exec (.tlbi x1 x2 x3) s = execTlbi x1 x2 x3 s := rfl
theorem exec_disarm x1 x2 (s : State) : exec (.disarm x1 x2) s = execDisarm x1 x2 s := rfl
theorem exec_fadd x1 x2 x3 x4 x5 (s : State) : exec (.fadd x1 x2 x3 x4 x5) s = execFadd x1 x2 x3 x4 x5 s := rfl
theorem exec_fsub x1 x2 x3 x4 x5 (s : State) : exec (.fsub x1 x2 x3 x4 x5) s = execFsub x1 x2 x3 x4 x5 s := rfl
theorem exec_fmul x1 x2 x3 x4 x5 (s : State) : exec (.fmul x1 x2 x3 x4 x5) s = execFmul x1 x2 x3 x4 x5 s := rfl
theorem exec_fdiv x1 x2 x3 x4 x5 (s : State) : exec (.fdiv x1 x2 x3 x4 x5) s = execFdiv x1 x2 x3 x4 x5 s := rfl
theorem exec_fsqrt x1 x2 x3 x4 (s : State) : exec (.fsqrt x1 x2 x3 x4) s = execFsqrt x1 x2 x3 x4 s := rfl
theorem exec_fmin x1 x2 x3 x4 x5 (s : State) : exec (.fmin x1 x2 x3 x4 x5) s = execFmin x1 x2 x3 x4 x5 s := rfl
theorem exec_fmax x1 x2 x3 x4 x5 (s : State) : exec (.fmax x1 x2 x3 x4 x5) s = execFmax x1 x2 x3 x4 x5 s := rfl
theorem exec_fma x1 x2 x3 x4 x5 (s : State) : exec (.fma x1 x2 x3 x4 x5) s = execFma x1 x2 x3 x4 x5 s := rfl
theorem exec_fclass x1 x2 x3 x4 (s : State) : exec (.fclass x1 x2 x3 x4) s = execFclass x1 x2 x3 x4 s := rfl
theorem exec_fcmp x1 x2 x3 x4 x5 x6 (s : State) : exec (.fcmp x1 x2 x3 x4 x5 x6) s = execFcmp x1 x2 x3 x4 x5 x6 s := rfl
theorem exec_cvt x1 x2 x3 x4 x5 (s : State) : exec (.cvt x1 x2 x3 x4 x5) s = execCvt x1 x2 x3 x4 x5 s := rfl
theorem exec_vadd x1 x2 x3 x4 x5 x6 x7 (s : State) : exec (.vadd x1 x2 x3 x4 x5 x6 x7) s = execVadd x1 x2 x3 x4 x5 x6 x7 s := rfl
theorem exec_vsub x1 x2 x3 x4 x5 x6 x7 (s : State) : exec (.vsub x1 x2 x3 x4 x5 x6 x7) s = execVsub x1 x2 x3 x4 x5 x6 x7 s := rfl
theorem exec_vmul x1 x2 x3 x4 x5 x6 x7 (s : State) : exec (.vmul x1 x2 x3 x4 x5 x6 x7) s = execVmul x1 x2 x3 x4 x5 x6 x7 s := rfl
theorem exec_vfma x1 x2 x3 x4 x5 x6 x7 (s : State) : exec (.vfma x1 x2 x3 x4 x5 x6 x7) s = execVfma x1 x2 x3 x4 x5 x6 x7 s := rfl
theorem exec_vmin x1 x2 x3 x4 x5 x6 x7 (s : State) : exec (.vmin x1 x2 x3 x4 x5 x6 x7) s = execVmin x1 x2 x3 x4 x5 x6 x7 s := rfl
theorem exec_vmax x1 x2 x3 x4 x5 x6 x7 (s : State) : exec (.vmax x1 x2 x3 x4 x5 x6 x7) s = execVmax x1 x2 x3 x4 x5 x6 x7 s := rfl
theorem exec_vminN x1 x2 x3 x4 x5 x6 x7 (s : State) : exec (.vminN x1 x2 x3 x4 x5 x6 x7) s = execVminN x1 x2 x3 x4 x5 x6 x7 s := rfl
theorem exec_vmaxN x1 x2 x3 x4 x5 x6 x7 (s : State) : exec (.vmaxN x1 x2 x3 x4 x5 x6 x7) s = execVmaxN x1 x2 x3 x4 x5 x6 x7 s := rfl
theorem exec_vand x1 x2 x3 x4 x5 x6 x7 (s : State) : exec (.vand x1 x2 x3 x4 x5 x6 x7) s = execVand x1 x2 x3 x4 x5 x6 x7 s := rfl
theorem exec_vor x1 x2 x3 x4 x5 x6 x7 (s : State) : exec (.vor x1 x2 x3 x4 x5 x6 x7) s = execVor x1 x2 x3 x4 x5 x6 x7 s := rfl
theorem exec_vxor x1 x2 x3 x4 x5 x6 x7 (s : State) : exec (.vxor x1 x2 x3 x4 x5 x6 x7) s = execVxor x1 x2 x3 x4 x5 x6 x7 s := rfl
theorem exec_vshl x1 x2 x3 x4 x5 x6 x7 (s : State) : exec (.vshl x1 x2 x3 x4 x5 x6 x7) s = execVshl x1 x2 x3 x4 x5 x6 x7 s := rfl
theorem exec_vshrLogical x1 x2 x3 x4 x5 x6 x7 (s : State) : exec (.vshrLogical x1 x2 x3 x4 x5 x6 x7) s = execVshrLogical x1 x2 x3 x4 x5 x6 x7 s := rfl
theorem exec_vshrArithmetic x1 x2 x3 x4 x5 x6 x7 (s : State) : exec (.vshrArithmetic x1 x2 x3 x4 x5 x6 x7) s = execVshrArithmetic x1 x2 x3 x4 x5 x6 x7 s := rfl
theorem exec_vcmp x1 x2 x3 x4 x5 x6 (s : State) : exec (.vcmp x1 x2 x3 x4 x5 x6) s = execVcmp x1 x2 x3 x4 x5 x6 s := rfl
theorem exec_vcmpN x1 x2 x3 x4 x5 x6 (s : State) : exec (.vcmpN x1 x2 x3 x4 x5 x6) s = execVcmpN x1 x2 x3 x4 x5 x6 s := rfl
theorem exec_vsel x1 x2 x3 x4 x5 x6 (s : State) : exec (.vsel x1 x2 x3 x4 x5 x6) s = execVsel x1 x2 x3 x4 x5 x6 s := rfl
theorem exec_vmov x1 x2 x3 x4 x5 x6 (s : State) : exec (.vmov x1 x2 x3 x4 x5 x6) s = execVmov x1 x2 x3 x4 x5 x6 s := rfl
theorem exec_vbcst x1 x2 x3 x4 x5 x6 (s : State) : exec (.vbcst x1 x2 x3 x4 x5 x6) s = execVbcst x1 x2 x3 x4 x5 x6 s := rfl
theorem exec_vshuf x1 x2 x3 x4 x5 x6 x7 (s : State) : exec (.vshuf x1 x2 x3 x4 x5 x6 x7) s = execVshuf x1 x2 x3 x4 x5 x6 x7 s := rfl
theorem exec_vred x1 x2 x3 x4 x5 x6 (s : State) : exec (.vred x1 x2 x3 x4 x5 x6) s = execVred x1 x2 x3 x4 x5 x6 s := rfl
theorem exec_vexp2 x1 x2 x3 x4 x5 x6 (s : State) : exec (.vexp2 x1 x2 x3 x4 x5 x6) s = execVexp2 x1 x2 x3 x4 x5 x6 s := rfl
theorem exec_vrcp x1 x2 x3 x4 x5 x6 (s : State) : exec (.vrcp x1 x2 x3 x4 x5 x6) s = execVrcp x1 x2 x3 x4 x5 x6 s := rfl
theorem exec_vrsq x1 x2 x3 x4 x5 x6 (s : State) : exec (.vrsq x1 x2 x3 x4 x5 x6) s = execVrsq x1 x2 x3 x4 x5 x6 s := rfl
theorem exec_vcvt x1 x2 x3 x4 x5 x6 x7 (s : State) : exec (.vcvt x1 x2 x3 x4 x5 x6 x7) s = execVcvt x1 x2 x3 x4 x5 x6 x7 s := rfl
theorem exec_vcvtN x1 x2 x3 x4 x5 x6 x7 (s : State) : exec (.vcvtN x1 x2 x3 x4 x5 x6 x7) s = execVcvtN x1 x2 x3 x4 x5 x6 x7 s := rfl
theorem exec_qscl x1 x2 x3 x4 x5 (s : State) : exec (.qscl x1 x2 x3 x4 x5) s = execQscl x1 x2 x3 x4 x5 s := rfl
theorem exec_qcvt x1 x2 x3 x4 x5 (s : State) : exec (.qcvt x1 x2 x3 x4 x5) s = execQcvt x1 x2 x3 x4 x5 s := rfl
theorem exec_pxpk x1 x2 x3 (s : State) : exec (.pxpk x1 x2 x3) s = execPxpk x1 x2 x3 s := rfl
theorem exec_pxun x1 x2 x3 (s : State) : exec (.pxun x1 x2 x3) s = execPxun x1 x2 x3 s := rfl
theorem exec_nput x1 x2 x3 (s : State) : exec (.nput x1 x2 x3) s = execNput x1 x2 x3 s := rfl
theorem exec_nget x1 x2 x3 (s : State) : exec (.nget x1 x2 x3) s = execNget x1 x2 x3 s := rfl
theorem exec_vld x1 x2 x3 x4 x5 x6 (s : State) : exec (.vld x1 x2 x3 x4 x5 x6) s = execVld x1 x2 x3 x4 x5 x6 s := rfl
theorem exec_vst x1 x2 x3 x4 x5 x6 (s : State) : exec (.vst x1 x2 x3 x4 x5 x6) s = execVst x1 x2 x3 x4 x5 x6 s := rfl
theorem exec_vlds x1 x2 x3 x4 x5 x6 (s : State) : exec (.vlds x1 x2 x3 x4 x5 x6) s = execVlds x1 x2 x3 x4 x5 x6 s := rfl
theorem exec_vsts x1 x2 x3 x4 x5 x6 (s : State) : exec (.vsts x1 x2 x3 x4 x5 x6) s = execVsts x1 x2 x3 x4 x5 x6 s := rfl
theorem exec_vgth x1 x2 x3 x4 x5 x6 x7 (s : State) : exec (.vgth x1 x2 x3 x4 x5 x6 x7) s = execVgth x1 x2 x3 x4 x5 x6 x7 s := rfl
theorem exec_vsct x1 x2 x3 x4 x5 x6 (s : State) : exec (.vsct x1 x2 x3 x4 x5 x6) s = execVsct x1 x2 x3 x4 x5 x6 s := rfl
theorem exec_mzero x1 x2 (s : State) : exec (.mzero x1 x2) s = execMzero x1 x2 s := rfl
theorem exec_msto x1 x2 x3 x4 x5 (s : State) : exec (.msto x1 x2 x3 x4 x5) s = execMsto x1 x2 x3 x4 x5 s := rfl
theorem exec_mstoStream x1 x2 (s : State) : exec (.mstoStream x1 x2) s = execMstoStream x1 x2 s := rfl
theorem exec_mlatch x1 x2 x3 x4 (s : State) : exec (.mlatch x1 x2 x3 x4) s = execMlatch x1 x2 x3 x4 s := rfl
theorem exec_mpass x1 x2 x3 (s : State) : exec (.mpass x1 x2 x3) s = execMpass x1 x2 x3 s := rfl
theorem exec_movi x1 x2 x3 (s : State) : exec (.movi x1 x2 x3) s = execMovi x1 x2 x3 s := rfl
theorem exec_mmaLatch x1 x2 x3 x4 x5 x6 x7 x8 (s : State) : exec (.mmaLatch x1 x2 x3 x4 x5 x6 x7 x8) s = execMmaLatch x1 x2 x3 x4 x5 x6 x7 x8 s := rfl
theorem exec_mmaLocal x1 x2 x3 x4 x5 x6 x7 x8 (s : State) : exec (.mmaLocal x1 x2 x3 x4 x5 x6 x7 x8) s = execMmaLocal x1 x2 x3 x4 x5 x6 x7 x8 s := rfl
theorem exec_cpyg x1 x2 x3 x4 x5 x6 x7 x8 (s : State) : exec (.cpyg x1 x2 x3 x4 x5 x6 x7 x8) s = execCpyg x1 x2 x3 x4 x5 x6 x7 x8 s := rfl
theorem exec_cpyb x1 x2 x3 x4 x5 x6 x7 x8 (s : State) : exec (.cpyb x1 x2 x3 x4 x5 x6 x7 x8) s = execCpyb x1 x2 x3 x4 x5 x6 x7 x8 s := rfl
theorem exec_cpyx x1 x2 x3 x4 x5 x6 x7 (s : State) : exec (.cpyx x1 x2 x3 x4 x5 x6 x7) s = execCpyx x1 x2 x3 x4 x5 x6 x7 s := rfl
theorem exec_putr x1 x2 x3 x4 x5 x6 x7 x8 (s : State) : exec (.putr x1 x2 x3 x4 x5 x6 x7 x8) s = execPutr x1 x2 x3 x4 x5 x6 x7 x8 s := rfl
theorem exec_getr x1 x2 x3 x4 x5 x6 x7 x8 (s : State) : exec (.getr x1 x2 x3 x4 x5 x6 x7 x8) s = execGetr x1 x2 x3 x4 x5 x6 x7 x8 s := rfl
theorem exec_shld x1 x2 x3 x4 x5 (s : State) : exec (.shld x1 x2 x3 x4 x5) s = execShld x1 x2 x3 x4 x5 s := rfl
theorem exec_shst x1 x2 x3 x4 x5 (s : State) : exec (.shst x1 x2 x3 x4 x5) s = execShst x1 x2 x3 x4 x5 s := rfl
theorem exec_shev x1 x2 (s : State) : exec (.shev x1 x2) s = execShev x1 x2 s := rfl
theorem exec_send x1 x2 x3 x4 x5 x6 x7 (s : State) : exec (.send x1 x2 x3 x4 x5 x6 x7) s = execSend x1 x2 x3 x4 x5 x6 x7 s := rfl
theorem exec_sendt x1 x2 x3 x4 x5 (s : State) : exec (.sendt x1 x2 x3 x4 x5) s = execSendt x1 x2 x3 x4 x5 s := rfl
theorem exec_spawn x1 x2 x3 x4 (s : State) : exec (.spawn x1 x2 x3 x4) s = execSpawn x1 x2 x3 x4 s := rfl
theorem exec_arm x1 x2 x3 x4 x5 (s : State) : exec (.arm x1 x2 x3 x4 x5) s = execArm x1 x2 x3 x4 x5 s := rfl
theorem exec_rcall x1 x2 x3 x4 x5 x6 (s : State) : exec (.rcall x1 x2 x3 x4 x5 x6) s = execRcall x1 x2 x3 x4 x5 x6 s := rfl
theorem exec_rread x1 x2 x3 x4 x5 x6 (s : State) : exec (.rread x1 x2 x3 x4 x5 x6) s = execRread x1 x2 x3 x4 x5 x6 s := rfl
theorem exec_rwait x1 x2 x3 (s : State) : exec (.rwait x1 x2 x3) s = execRwait x1 x2 x3 s := rfl
theorem exec_rtrim x1 x2 (s : State) : exec (.rtrim x1 x2) s = execRtrim x1 x2 s := rfl
theorem exec_parkResume x1 (s : State) : exec (.parkResume x1) s = execParkResume x1 s := rfl
theorem exec_revocationDetach x1 (s : State) : exec (.revocationDetach x1) s = execRevocationDetach x1 s := rfl
theorem exec_windowSpill x1 (s : State) : exec (.windowSpill x1) s = execWindowSpill x1 s := rfl
theorem exec_windowFill x1 (s : State) : exec (.windowFill x1) s = execWindowFill x1 s := rfl
theorem exec_barkerFetch x1 x2 x3 (s : State) : exec (.barkerFetch x1 x2 x3) s = execBarkerFetch x1 x2 x3 s := rfl
theorem exec_streamWordArrival x1 x2 (s : State) : exec (.streamWordArrival x1 x2) s = execStreamWordArrival x1 x2 s := rfl
theorem exec_voteResultArrival x1 x2 x3 (s : State) : exec (.voteResultArrival x1 x2 x3) s = execVoteResultArrival x1 x2 x3 s := rfl
theorem exec_latchEntryArrival x1 x2 x3 (s : State) : exec (.latchEntryArrival x1 x2 x3) s = execLatchEntryArrival x1 x2 x3 s := rfl
theorem exec_spawnServe x1 (s : State) : exec (.spawnServe x1) s = execSpawnServe x1 s := rfl
theorem exec_stealRequest x1 x2 (s : State) : exec (.stealRequest x1 x2) s = execStealRequest x1 x2 s := rfl
theorem exec_stealResponse x1 x2 x3 (s : State) : exec (.stealResponse x1 x2 x3) s = execStealResponse x1 x2 x3 s := rfl
theorem exec_claimArrival x1 x2 x3 x4 (s : State) : exec (.claimArrival x1 x2 x3 x4) s = execClaimArrival x1 x2 x3 x4 s := rfl
theorem exec_dtchDrainEnd x1 (s : State) : exec (.dtchDrainEnd x1) s = execDtchDrainEnd x1 s := rfl
theorem exec_retentionEntryEnd x1 (s : State) : exec (.retentionEntryEnd x1) s = execRetentionEntryEnd x1 s := rfl
theorem exec_retentionExitEnd x1 (s : State) : exec (.retentionExitEnd x1) s = execRetentionExitEnd x1 s := rfl
theorem exec_hovrSwap x1 (s : State) : exec (.hovrSwap x1) s = execHovrSwap x1 s := rfl
theorem exec_bcmdAttach x1 x2 (s : State) : exec (.bcmdAttach x1 x2) s = execBcmdAttach x1 x2 s := rfl
theorem exec_bcmdSetowner x1 x2 (s : State) : exec (.bcmdSetowner x1 x2) s = execBcmdSetowner x1 x2 s := rfl
theorem exec_bcmdUnrevoke x1 x2 (s : State) : exec (.bcmdUnrevoke x1 x2) s = execBcmdUnrevoke x1 x2 s := rfl
theorem exec_bcmdRefused x1 x2 (s : State) : exec (.bcmdRefused x1 x2) s = execBcmdRefused x1 x2 s := rfl
theorem exec_setownerDone x1 (s : State) : exec (.setownerDone x1) s = execSetownerDone x1 s := rfl
theorem exec_cmapDeadSet x1 x2 x3 (s : State) : exec (.cmapDeadSet x1 x2 x3) s = execCmapDeadSet x1 x2 x3 s := rfl
theorem exec_cmapstRefusedClear x1 (s : State) : exec (.cmapstRefusedClear x1) s = execCmapstRefusedClear x1 s := rfl
theorem exec_tlbWalk x1 x2 x3 x4 (s : State) : exec (.tlbWalk x1 x2 x3 x4) s = execTlbWalk x1 x2 x3 x4 s := rfl
theorem exec_pfqvRead x1 (s : State) : exec (.pfqvRead x1) s = execPfqvRead x1 s := rfl
theorem exec_tlbiDieAck x1 x2 (s : State) : exec (.tlbiDieAck x1 x2) s = execTlbiDieAck x1 x2 s := rfl
theorem exec_migrationGo x1 x2 (s : State) : exec (.migrationGo x1 x2) s = execMigrationGo x1 x2 s := rfl
theorem exec_migrationEnd x1 (s : State) : exec (.migrationEnd x1) s = execMigrationEnd x1 s := rfl
theorem exec_copyPacketLand x1 x2 (s : State) : exec (.copyPacketLand x1 x2) s = execCopyPacketLand x1 x2 s := rfl
theorem exec_copyFault x1 x2 (s : State) : exec (.copyFault x1 x2) s = execCopyFault x1 x2 s := rfl
theorem exec_egressQueueDrain x1 x2 (s : State) : exec (.egressQueueDrain x1 x2) s = execEgressQueueDrain x1 x2 s := rfl
theorem exec_messageArrival x1 x2 x3 x4 x5 (s : State) : exec (.messageArrival x1 x2 x3 x4 x5) s = execMessageArrival x1 x2 x3 x4 x5 s := rfl
theorem exec_mailboxDivert x1 x2 (s : State) : exec (.mailboxDivert x1 x2) s = execMailboxDivert x1 x2 s := rfl
theorem exec_arrivalLogMove x1 x2 (s : State) : exec (.arrivalLogMove x1 x2) s = execArrivalLogMove x1 x2 s := rfl
theorem exec_semaphoreArrival x1 x2 x3 (s : State) : exec (.semaphoreArrival x1 x2 x3) s = execSemaphoreArrival x1 x2 x3 s := rfl
theorem exec_reservationGrant x1 (s : State) : exec (.reservationGrant x1) s = execReservationGrant x1 s := rfl
theorem exec_reservationForceRelease x1 (s : State) : exec (.reservationForceRelease x1) s = execReservationForceRelease x1 s := rfl
theorem exec_barrierArrival x1 x2 x3 x4 (s : State) : exec (.barrierArrival x1 x2 x3 x4) s = execBarrierArrival x1 x2 x3 x4 s := rfl
theorem exec_objectCreate x1 x2 (s : State) : exec (.objectCreate x1 x2) s = execObjectCreate x1 x2 s := rfl
theorem exec_objectDestroy x1 (s : State) : exec (.objectDestroy x1) s = execObjectDestroy x1 s := rfl
theorem exec_replayAppend x1 (s : State) : exec (.replayAppend x1) s = execReplayAppend x1 s := rfl
theorem exec_carouselApply x1 (s : State) : exec (.carouselApply x1) s = execCarouselApply x1 s := rfl
theorem exec_carouselRead x1 (s : State) : exec (.carouselRead x1) s = execCarouselRead x1 s := rfl
theorem exec_appliedPositionReport x1 x2 (s : State) : exec (.appliedPositionReport x1 x2) s = execAppliedPositionReport x1 x2 s := rfl
theorem exec_replicaResync x1 x2 (s : State) : exec (.replicaResync x1 x2) s = execReplicaResync x1 x2 s := rfl
theorem exec_taggedMessage x1 (s : State) : exec (.taggedMessage x1) s = execTaggedMessage x1 s := rfl
theorem exec_turnstileCountResume x1 (s : State) : exec (.turnstileCountResume x1) s = execTurnstileCountResume x1 s := rfl
theorem exec_loadRectangle x1 (s : State) : exec (.loadRectangle x1) s = execLoadRectangle x1 s := rfl
theorem exec_quantumExpiry x1 (s : State) : exec (.quantumExpiry x1) s = execQuantumExpiry x1 s := rfl
theorem exec_contextIdle x1 (s : State) : exec (.contextIdle x1) s = execContextIdle x1 s := rfl
theorem exec_preemption x1 x2 (s : State) : exec (.preemption x1 x2) s = execPreemption x1 x2 s := rfl
theorem exec_restore x1 (s : State) : exec (.restore x1) s = execRestore x1 s := rfl
theorem exec_turnstileRelease x1 (s : State) : exec (.turnstileRelease x1) s = execTurnstileRelease x1 s := rfl
theorem exec_mmaRun x1 (s : State) : exec (.mmaRun x1) s = execMmaRun x1 s := rfl
theorem exec_mlatchRun x1 (s : State) : exec (.mlatchRun x1) s = execMlatchRun x1 s := rfl
theorem exec_mstoRun x1 (s : State) : exec (.mstoRun x1) s = execMstoRun x1 s := rfl
theorem exec_mzeroRun x1 (s : State) : exec (.mzeroRun x1) s = execMzeroRun x1 s := rfl
theorem exec_latchPass x1 x2 x3 (s : State) : exec (.latchPass x1 x2 x3) s = execLatchPass x1 x2 x3 s := rfl
theorem exec_packetHop x1 x2 (s : State) : exec (.packetHop x1 x2) s = execPacketHop x1 x2 s := rfl
theorem exec_timeRequest x1 (s : State) : exec (.timeRequest x1) s = execTimeRequest x1 s := rfl
theorem exec_requestTimeout x1 (s : State) : exec (.requestTimeout x1) s = execRequestTimeout x1 s := rfl
theorem exec_bankMicrosecondSample (s : State) : exec .bankMicrosecondSample s = execBankMicrosecondSample s := rfl
theorem exec_checkpointGo x1 (s : State) : exec (.checkpointGo x1) s = execCheckpointGo x1 s := rfl
theorem exec_checkpointEnd x1 (s : State) : exec (.checkpointEnd x1) s = execCheckpointEnd x1 s := rfl
theorem exec_ccrunStart x1 x2 x3 (s : State) : exec (.ccrunStart x1 x2 x3) s = execCcrunStart x1 x2 x3 s := rfl
theorem exec_ccrunStop x1 x2 x3 (s : State) : exec (.ccrunStop x1 x2 x3) s = execCcrunStop x1 x2 x3 s := rfl
theorem exec_ccromRomoff (s : State) : exec .ccromRomoff s = execCcromRomoff s := rfl
theorem exec_dutyHostTimeout x1 (s : State) : exec (.dutyHostTimeout x1) s = execDutyHostTimeout x1 s := rfl
theorem exec_mmioRegisterWrite x1 x2 (s : State) : exec (.mmioRegisterWrite x1 x2) s = execMmioRegisterWrite x1 x2 s := rfl
theorem exec_notAnInstruction x1 x2 (s : State) : exec (.notAnInstruction x1 x2) s = execNotAnInstruction x1 x2 s := rfl
theorem exec_streamImageEndMarker x1 (s : State) : exec (.streamImageEndMarker x1) s = execStreamImageEndMarker x1 s := rfl
theorem exec_streamerTrafficInjection x1 (s : State) : exec (.streamerTrafficInjection x1) s = execStreamerTrafficInjection x1 s := rfl
theorem exec_accessReply x1 x2 (s : State) : exec (.accessReply x1 x2) s = execAccessReply x1 x2 s := rfl
theorem exec_accessRequestArrival x1 x2 (s : State) : exec (.accessRequestArrival x1 x2) s = execAccessRequestArrival x1 x2 s := rfl
theorem exec_tailFetch x1 (s : State) : exec (.tailFetch x1) s = execTailFetch x1 s := rfl
theorem exec_fabricLoadRequest x1 (s : State) : exec (.fabricLoadRequest x1) s = execFabricLoadRequest x1 s := rfl
theorem exec_fabricStore x1 (s : State) : exec (.fabricStore x1) s = execFabricStore x1 s := rfl
theorem exec_fabricAtomic x1 (s : State) : exec (.fabricAtomic x1) s = execFabricAtomic x1 s := rfl
theorem exec_fabricGetrRequest x1 (s : State) : exec (.fabricGetrRequest x1) s = execFabricGetrRequest x1 s := rfl
theorem exec_fabricPutrData x1 (s : State) : exec (.fabricPutrData x1) s = execFabricPutrData x1 s := rfl
theorem exec_fabricAck x1 (s : State) : exec (.fabricAck x1) s = execFabricAck x1 s := rfl
theorem exec_fabricRefusal x1 (s : State) : exec (.fabricRefusal x1) s = execFabricRefusal x1 s := rfl
theorem exec_fabricAtomicReply x1 (s : State) : exec (.fabricAtomicReply x1) s = execFabricAtomicReply x1 s := rfl
theorem exec_fabricLoadData x1 (s : State) : exec (.fabricLoadData x1) s = execFabricLoadData x1 s := rfl
theorem exec_fabricBadOp x1 x2 (s : State) : exec (.fabricBadOp x1 x2) s = execFabricBadOp x1 x2 s := rfl
theorem exec_headerCrcError x1 (s : State) : exec (.headerCrcError x1) s = execHeaderCrcError x1 s := rfl
theorem exec_powerOn x1 x2 (s : State) : exec (.powerOn x1 x2) s = execPowerOn x1 x2 s := rfl
theorem exec_coldReset (s : State) : exec .coldReset s = execColdReset s := rfl
theorem exec_getVersion x1 (s : State) : exec (.getVersion x1) s = execGetVersion x1 s := rfl
theorem exec_getCapabilities x1 (s : State) : exec (.getCapabilities x1) s = execGetCapabilities x1 s := rfl
theorem exec_negotiateAlgorithms x1 (s : State) : exec (.negotiateAlgorithms x1) s = execNegotiateAlgorithms x1 s := rfl
theorem exec_getDigests x1 (s : State) : exec (.getDigests x1) s = execGetDigests x1 s := rfl
theorem exec_getCertificate x1 (s : State) : exec (.getCertificate x1) s = execGetCertificate x1 s := rfl
theorem exec_challenge x1 (s : State) : exec (.challenge x1) s = execChallenge x1 s := rfl
theorem exec_getMeasurements x1 (s : State) : exec (.getMeasurements x1) s = execGetMeasurements x1 s := rfl
theorem exec_keyExchange x1 (s : State) : exec (.keyExchange x1) s = execKeyExchange x1 s := rfl
theorem exec_finish x1 (s : State) : exec (.finish x1) s = execFinish x1 s := rfl
theorem exec_keyUpdate x1 (s : State) : exec (.keyUpdate x1) s = execKeyUpdate x1 s := rfl
theorem exec_heartbeat x1 (s : State) : exec (.heartbeat x1) s = execHeartbeat x1 s := rfl
theorem exec_endSession x1 (s : State) : exec (.endSession x1) s = execEndSession x1 s := rfl
theorem exec_vendorDefinedRequest x1 x2 (s : State) : exec (.vendorDefinedRequest x1 x2) s = execVendorDefinedRequest x1 x2 s := rfl
theorem exec_frzAssert (s : State) : exec .frzAssert s = execFrzAssert s := rfl
theorem exec_thaw (s : State) : exec .thaw s = execThaw s := rfl
theorem exec_debugRead x1 (s : State) : exec (.debugRead x1) s = execDebugRead x1 s := rfl
theorem exec_thermalReport x1 x2 (s : State) : exec (.thermalReport x1 x2) s = execThermalReport x1 x2 s := rfl
theorem exec_thermalClockRestore (s : State) : exec .thermalClockRestore s = execThermalClockRestore s := rfl
theorem exec_hostEventAck x1 x2 x3 x4 (s : State) : exec (.hostEventAck x1 x2 x3 x4) s = execHostEventAck x1 x2 x3 x4 s := rfl
theorem exec_hostWake x1 x2 x3 x4 x5 (s : State) : exec (.hostWake x1 x2 x3 x4 x5) s = execHostWake x1 x2 x3 x4 x5 s := rfl
theorem exec_hostBcmd x1 x2 x3 x4 x5 (s : State) : exec (.hostBcmd x1 x2 x3 x4 x5) s = execHostBcmd x1 x2 x3 x4 x5 s := rfl
theorem exec_hostRtrim x1 x2 x3 x4 x5 (s : State) : exec (.hostRtrim x1 x2 x3 x4 x5) s = execHostRtrim x1 x2 x3 x4 x5 s := rfl
theorem exec_hostArm x1 x2 x3 x4 x5 x6 x7 x8 (s : State) : exec (.hostArm x1 x2 x3 x4 x5 x6 x7 x8) s = execHostArm x1 x2 x3 x4 x5 x6 x7 x8 s := rfl
theorem exec_hostDisarm x1 x2 x3 x4 x5 (s : State) : exec (.hostDisarm x1 x2 x3 x4 x5) s = execHostDisarm x1 x2 x3 x4 x5 s := rfl
theorem exec_hostMigc x1 x2 x3 x4 x5 (s : State) : exec (.hostMigc x1 x2 x3 x4 x5) s = execHostMigc x1 x2 x3 x4 x5 s := rfl
theorem exec_hostCkpt x1 x2 x3 x4 x5 (s : State) : exec (.hostCkpt x1 x2 x3 x4 x5) s = execHostCkpt x1 x2 x3 x4 x5 s := rfl
theorem exec_hostTlbi x1 x2 x3 x4 x5 x6 (s : State) : exec (.hostTlbi x1 x2 x3 x4 x5 x6) s = execHostTlbi x1 x2 x3 x4 x5 x6 s := rfl
theorem exec_hostPhysicalWrite x1 x2 x3 x4 x5 x6 (s : State) : exec (.hostPhysicalWrite x1 x2 x3 x4 x5 x6) s = execHostPhysicalWrite x1 x2 x3 x4 x5 x6 s := rfl
theorem exec_hostPhysicalRead x1 x2 x3 x4 x5 x6 (s : State) : exec (.hostPhysicalRead x1 x2 x3 x4 x5 x6) s = execHostPhysicalRead x1 x2 x3 x4 x5 x6 s := rfl
theorem exec_portDown x1 (s : State) : exec (.portDown x1) s = execPortDown x1 s := rfl
theorem exec_portUp x1 x2 (s : State) : exec (.portUp x1 x2) s = execPortUp x1 x2 s := rfl
theorem exec_linkResendRequest x1 x2 (s : State) : exec (.linkResendRequest x1 x2) s = execLinkResendRequest x1 x2 s := rfl
theorem exec_powerRemoval (s : State) : exec .powerRemoval s = execPowerRemoval s := rfl
theorem exec_newFirstStage x1 x2 (s : State) : exec (.newFirstStage x1 x2) s = execNewFirstStage x1 x2 s := rfl

end Sys2Proof.Machine
end

