-- ==== Sys2Proof/Laws/Sparse.lean ====
section
/-! SUPPORT. Laws of sparse tables: reading after writing, and the canonical form. -/
namespace Sys2Proof.Machine

theorem tget_tput_same {α : Type} (d : α) (t : Table α) (n : Nat) (v : α) : tget d (tput t n v) n = v := by
  induction t with
  | nil => simp [tput, tget]
  | cons e t ih =>
    obtain ⟨k, u⟩ := e
    by_cases h : n < k
    · simp [tput, tget, h]
    · by_cases h' : n = k
      · simp [tput, tget, h']
      · simp [tput, tget, h, h', ih]

theorem tget_tput_ne {α : Type} (d : α) (t : Table α) {n m : Nat} (v : α) (h : m ≠ n) :
    tget d (tput t n v) m = tget d t m := by
  induction t with
  | nil => simp [tput, tget, h]
  | cons e t ih =>
    obtain ⟨k, u⟩ := e
    by_cases h1 : n < k
    · simp [tput, tget, h1, h]
    · by_cases h2 : n = k
      · subst h2; simp [tput, tget, h]
      · simp only [tput, h1, h2, if_false, tget, ih]

theorem tget_tdel_same {α : Type} (d : α) (t : Table α) (n : Nat) : tget d (tdel t n) n = d := by
  induction t with
  | nil => rfl
  | cons e t ih =>
    obtain ⟨k, u⟩ := e
    by_cases h : n = k
    · simp only [tdel, h, if_true]; rw [h] at ih; exact ih
    · simp only [tdel, h, if_false, tget, ih]

theorem tget_tdel_ne {α : Type} (d : α) (t : Table α) {n m : Nat} (h : m ≠ n) : tget d (tdel t n) m = tget d t m := by
  induction t with
  | nil => rfl
  | cons e t ih =>
    obtain ⟨k, u⟩ := e
    by_cases h1 : n = k
    · subst h1; simp only [tdel, if_true, tget, h, if_false, ih]
    · simp only [tdel, h1, if_false, tget, ih]

/-- Reading back what was written. -/
@[simp] theorem tget_tset_same {α : Type} [DecidableEq α] (d : α) (t : Table α) (n : Nat) (v : α) :
    tget d (tset d t n v) n = v := by
  by_cases h : v = d
  · simp only [tset, h, if_true, tget_tdel_same]
  · simp only [tset, h, if_false, tget_tput_same]

/-- A write leaves every other key alone. -/
theorem tget_tset_ne {α : Type} [DecidableEq α] (d : α) (t : Table α) {n m : Nat} (v : α) (h : m ≠ n) :
    tget d (tset d t n v) m = tget d t m := by
  by_cases h1 : v = d
  · simp only [tset, h1, if_true, tget_tdel_ne _ _ h]
  · simp only [tset, h1, if_false, tget_tput_ne _ _ _ h]

/-- Both at once. -/
theorem tget_tset {α : Type} [DecidableEq α] (d : α) (t : Table α) (n m : Nat) (v : α) :
    tget d (tset d t n v) m = if m = n then v else tget d t m := by
  by_cases h : m = n
  · subst h; simp
  · simp only [tget_tset_ne _ _ _ h, h, if_false]

/-! The canonical form. -/

theorem twfFrom_mono {α : Type} [DecidableEq α] (d : α) (t : Table α) {lo lo' : Nat} (h : lo' ≤ lo)
    (w : twfFrom d lo t = true) : twfFrom d lo' t = true := by
  cases t with
  | nil => rfl
  | cons e t =>
    obtain ⟨k, u⟩ := e
    simp only [twfFrom, Bool.and_eq_true, decide_eq_true_eq] at w ⊢
    exact ⟨⟨Nat.le_trans h w.1.1, w.1.2⟩, w.2⟩

theorem twfFrom_tput {α : Type} [DecidableEq α] (d : α) (t : Table α) (n : Nat) (v : α) (hv : v ≠ d) :
    ∀ lo, lo ≤ n → twfFrom d lo t = true → twfFrom d lo (tput t n v) = true := by
  induction t with
  | nil => intro lo h _; simp [tput, twfFrom, h, hv]
  | cons e t ih =>
    obtain ⟨k, u⟩ := e
    intro lo h w
    simp only [twfFrom, Bool.and_eq_true, decide_eq_true_eq] at w
    by_cases h1 : n < k
    · simp only [tput, h1, if_true, twfFrom, Bool.and_eq_true, decide_eq_true_eq]
      exact ⟨⟨h, hv⟩, ⟨by omega, w.1.2⟩, w.2⟩
    · by_cases h2 : n = k
      · subst h2
        simp only [tput, h1, if_false, if_true, twfFrom, Bool.and_eq_true, decide_eq_true_eq]
        exact ⟨⟨w.1.1, hv⟩, w.2⟩
      · simp only [tput, h1, h2, if_false, twfFrom, Bool.and_eq_true, decide_eq_true_eq]
        exact ⟨w.1, ih (k + 1) (by omega) w.2⟩

theorem twfFrom_tdel {α : Type} [DecidableEq α] (d : α) (t : Table α) (n : Nat) :
    ∀ lo, twfFrom d lo t = true → twfFrom d lo (tdel t n) = true := by
  induction t with
  | nil => intro lo _; rfl
  | cons e t ih =>
    obtain ⟨k, u⟩ := e
    intro lo w
    simp only [twfFrom, Bool.and_eq_true, decide_eq_true_eq] at w
    by_cases h : n = k
    · simp only [tdel, h, if_true]
      rw [h] at ih
      exact twfFrom_mono d _ (Nat.le_trans w.1.1 (Nat.le_succ k)) (ih (k + 1) w.2)
    · simp only [tdel, h, if_false, twfFrom, Bool.and_eq_true, decide_eq_true_eq]
      exact ⟨w.1, ih (k + 1) w.2⟩

/-- A write keeps the canonical form. -/
theorem twf_tset {α : Type} [DecidableEq α] (d : α) (t : Table α) (n : Nat) (v : α) (w : twf d t = true) :
    twf d (tset d t n v) = true := by
  by_cases h : v = d
  · simp only [twf, tset, h, if_true]; exact twfFrom_tdel d t n 0 w
  · simp only [twf, tset, h, if_false]; exact twfFrom_tput d t n v h 0 (Nat.zero_le n) w

theorem twfFrom_filter {α : Type} [DecidableEq α] (d : α) (t : Table α) (p : Nat × α → Bool) :
    ∀ lo, twfFrom d lo t = true → twfFrom d lo (t.filter p) = true := by
  induction t with
  | nil => intro lo _; rfl
  | cons e t ih =>
    obtain ⟨k, u⟩ := e
    intro lo w
    simp only [twfFrom, Bool.and_eq_true, decide_eq_true_eq] at w
    by_cases h : p (k, u) = true
    · rw [List.filter_cons_of_pos h]
      simp only [twfFrom, Bool.and_eq_true, decide_eq_true_eq]
      exact ⟨w.1, ih (k + 1) w.2⟩
    · rw [List.filter_cons_of_neg h]
      exact twfFrom_mono d _ (Nat.le_trans w.1.1 (Nat.le_succ k)) (ih (k + 1) w.2)

/-- Leaving entries out keeps the canonical form. -/
theorem twf_filter {α : Type} [DecidableEq α] (d : α) (t : Table α) (p : Nat × α → Bool) (w : twf d t = true) :
    twf d (t.filter p) = true := twfFrom_filter d t p 0 w

end Sys2Proof.Machine
end

