-- ==== Sys2Proof/Laws/State.lean ====
section
/-! SUPPORT. What each update of the state leaves alone: one law for each field and update, true by definition. -/
namespace Sys2Proof.Machine

/-! State.setSlot changes slots only. -/

@[simp] theorem State.setSlot_sites (s : State) (r : SlotRef) (x : Slot) : (s.setSlot r x).sites = s.sites := rfl
@[simp] theorem State.setSlot_banks (s : State) (r : SlotRef) (x : Slot) : (s.setSlot r x).banks = s.banks := rfl
@[simp] theorem State.setSlot_mem (s : State) (r : SlotRef) (x : Slot) : (s.setSlot r x).mem = s.mem := rfl
@[simp] theorem State.setSlot_poison (s : State) (r : SlotRef) (x : Slot) : (s.setSlot r x).poison = s.poison := rfl
@[simp] theorem State.setSlot_wrong (s : State) (r : SlotRef) (x : Slot) : (s.setSlot r x).wrong = s.wrong := rfl
@[simp] theorem State.setSlot_tags (s : State) (r : SlotRef) (x : Slot) : (s.setSlot r x).tags = s.tags := rfl
@[simp] theorem State.setSlot_keys (s : State) (r : SlotRef) (x : Slot) : (s.setSlot r x).keys = s.keys := rfl
@[simp] theorem State.setSlot_fuses (s : State) (r : SlotRef) (x : Slot) : (s.setSlot r x).fuses = s.fuses := rfl
@[simp] theorem State.setSlot_dies (s : State) (r : SlotRef) (x : Slot) : (s.setSlot r x).dies = s.dies := rfl
@[simp] theorem State.setSlot_mds (s : State) (r : SlotRef) (x : Slot) : (s.setSlot r x).mds = s.mds := rfl
@[simp] theorem State.setSlot_iod (s : State) (r : SlotRef) (x : Slot) : (s.setSlot r x).iod = s.iod := rfl
@[simp] theorem State.setSlot_turnstiles (s : State) (r : SlotRef) (x : Slot) : (s.setSlot r x).turnstiles = s.turnstiles := rfl
@[simp] theorem State.setSlot_objects (s : State) (r : SlotRef) (x : Slot) : (s.setSlot r x).objects = s.objects := rfl
@[simp] theorem State.setSlot_copies (s : State) (r : SlotRef) (x : Slot) : (s.setSlot r x).copies = s.copies := rfl
@[simp] theorem State.setSlot_resv (s : State) (r : SlotRef) (x : Slot) : (s.setSlot r x).resv = s.resv := rfl
@[simp] theorem State.setSlot_routers (s : State) (r : SlotRef) (x : Slot) : (s.setSlot r x).routers = s.routers := rfl
@[simp] theorem State.setSlot_packets (s : State) (r : SlotRef) (x : Slot) : (s.setSlot r x).packets = s.packets := rfl
@[simp] theorem State.setSlot_plans (s : State) (r : SlotRef) (x : Slot) : (s.setSlot r x).plans = s.plans := rfl
@[simp] theorem State.setSlot_shared (s : State) (r : SlotRef) (x : Slot) : (s.setSlot r x).shared = s.shared := rfl
@[simp] theorem State.setSlot_refusedImages (s : State) (r : SlotRef) (x : Slot) : (s.setSlot r x).refusedImages = s.refusedImages := rfl
@[simp] theorem State.setSlot_sends (s : State) (r : SlotRef) (x : Slot) : (s.setSlot r x).sends = s.sends := rfl
@[simp] theorem State.setSlot_barSends (s : State) (r : SlotRef) (x : Slot) : (s.setSlot r x).barSends = s.barSends := rfl
@[simp] theorem State.setSlot_power (s : State) (r : SlotRef) (x : Slot) : (s.setSlot r x).power = s.power := rfl
@[simp] theorem State.setSlot_cycle (s : State) (r : SlotRef) (x : Slot) : (s.setSlot r x).cycle = s.cycle := rfl
@[simp] theorem State.setSlot_cur (s : State) (r : SlotRef) (x : Slot) : (s.setSlot r x).cur = s.cur := rfl
@[simp] theorem State.setSlot_resumes (s : State) (r : SlotRef) (x : Slot) : (s.setSlot r x).resumes = s.resumes := rfl
@[simp] theorem State.setSlot_inputs (s : State) (r : SlotRef) (x : Slot) : (s.setSlot r x).inputs = s.inputs := rfl
@[simp] theorem State.setSlot_work (s : State) (r : SlotRef) (x : Slot) : (s.setSlot r x).work = s.work := rfl
@[simp] theorem State.setSlot_evTurn (s : State) (r : SlotRef) (x : Slot) : (s.setSlot r x).evTurn = s.evTurn := rfl
@[simp] theorem State.setSlot_draws (s : State) (r : SlotRef) (x : Slot) : (s.setSlot r x).draws = s.draws := rfl
@[simp] theorem State.setSlot_nextId (s : State) (r : SlotRef) (x : Slot) : (s.setSlot r x).nextId = s.nextId := rfl

/-! State.modSlot changes slots only. -/

@[simp] theorem State.modSlot_sites (s : State) (r : SlotRef) (f : Slot → Slot) : (s.modSlot r f).sites = s.sites := rfl
@[simp] theorem State.modSlot_banks (s : State) (r : SlotRef) (f : Slot → Slot) : (s.modSlot r f).banks = s.banks := rfl
@[simp] theorem State.modSlot_mem (s : State) (r : SlotRef) (f : Slot → Slot) : (s.modSlot r f).mem = s.mem := rfl
@[simp] theorem State.modSlot_poison (s : State) (r : SlotRef) (f : Slot → Slot) : (s.modSlot r f).poison = s.poison := rfl
@[simp] theorem State.modSlot_wrong (s : State) (r : SlotRef) (f : Slot → Slot) : (s.modSlot r f).wrong = s.wrong := rfl
@[simp] theorem State.modSlot_tags (s : State) (r : SlotRef) (f : Slot → Slot) : (s.modSlot r f).tags = s.tags := rfl
@[simp] theorem State.modSlot_keys (s : State) (r : SlotRef) (f : Slot → Slot) : (s.modSlot r f).keys = s.keys := rfl
@[simp] theorem State.modSlot_fuses (s : State) (r : SlotRef) (f : Slot → Slot) : (s.modSlot r f).fuses = s.fuses := rfl
@[simp] theorem State.modSlot_dies (s : State) (r : SlotRef) (f : Slot → Slot) : (s.modSlot r f).dies = s.dies := rfl
@[simp] theorem State.modSlot_mds (s : State) (r : SlotRef) (f : Slot → Slot) : (s.modSlot r f).mds = s.mds := rfl
@[simp] theorem State.modSlot_iod (s : State) (r : SlotRef) (f : Slot → Slot) : (s.modSlot r f).iod = s.iod := rfl
@[simp] theorem State.modSlot_turnstiles (s : State) (r : SlotRef) (f : Slot → Slot) : (s.modSlot r f).turnstiles = s.turnstiles := rfl
@[simp] theorem State.modSlot_objects (s : State) (r : SlotRef) (f : Slot → Slot) : (s.modSlot r f).objects = s.objects := rfl
@[simp] theorem State.modSlot_copies (s : State) (r : SlotRef) (f : Slot → Slot) : (s.modSlot r f).copies = s.copies := rfl
@[simp] theorem State.modSlot_resv (s : State) (r : SlotRef) (f : Slot → Slot) : (s.modSlot r f).resv = s.resv := rfl
@[simp] theorem State.modSlot_routers (s : State) (r : SlotRef) (f : Slot → Slot) : (s.modSlot r f).routers = s.routers := rfl
@[simp] theorem State.modSlot_packets (s : State) (r : SlotRef) (f : Slot → Slot) : (s.modSlot r f).packets = s.packets := rfl
@[simp] theorem State.modSlot_plans (s : State) (r : SlotRef) (f : Slot → Slot) : (s.modSlot r f).plans = s.plans := rfl
@[simp] theorem State.modSlot_shared (s : State) (r : SlotRef) (f : Slot → Slot) : (s.modSlot r f).shared = s.shared := rfl
@[simp] theorem State.modSlot_refusedImages (s : State) (r : SlotRef) (f : Slot → Slot) : (s.modSlot r f).refusedImages = s.refusedImages := rfl
@[simp] theorem State.modSlot_sends (s : State) (r : SlotRef) (f : Slot → Slot) : (s.modSlot r f).sends = s.sends := rfl
@[simp] theorem State.modSlot_barSends (s : State) (r : SlotRef) (f : Slot → Slot) : (s.modSlot r f).barSends = s.barSends := rfl
@[simp] theorem State.modSlot_power (s : State) (r : SlotRef) (f : Slot → Slot) : (s.modSlot r f).power = s.power := rfl
@[simp] theorem State.modSlot_cycle (s : State) (r : SlotRef) (f : Slot → Slot) : (s.modSlot r f).cycle = s.cycle := rfl
@[simp] theorem State.modSlot_cur (s : State) (r : SlotRef) (f : Slot → Slot) : (s.modSlot r f).cur = s.cur := rfl
@[simp] theorem State.modSlot_resumes (s : State) (r : SlotRef) (f : Slot → Slot) : (s.modSlot r f).resumes = s.resumes := rfl
@[simp] theorem State.modSlot_inputs (s : State) (r : SlotRef) (f : Slot → Slot) : (s.modSlot r f).inputs = s.inputs := rfl
@[simp] theorem State.modSlot_work (s : State) (r : SlotRef) (f : Slot → Slot) : (s.modSlot r f).work = s.work := rfl
@[simp] theorem State.modSlot_evTurn (s : State) (r : SlotRef) (f : Slot → Slot) : (s.modSlot r f).evTurn = s.evTurn := rfl
@[simp] theorem State.modSlot_draws (s : State) (r : SlotRef) (f : Slot → Slot) : (s.modSlot r f).draws = s.draws := rfl
@[simp] theorem State.modSlot_nextId (s : State) (r : SlotRef) (f : Slot → Slot) : (s.modSlot r f).nextId = s.nextId := rfl

/-! State.setSite changes sites only. -/

@[simp] theorem State.setSite_slots (s : State) (p : Nat) (x : Site) : (s.setSite p x).slots = s.slots := rfl
@[simp] theorem State.setSite_banks (s : State) (p : Nat) (x : Site) : (s.setSite p x).banks = s.banks := rfl
@[simp] theorem State.setSite_mem (s : State) (p : Nat) (x : Site) : (s.setSite p x).mem = s.mem := rfl
@[simp] theorem State.setSite_poison (s : State) (p : Nat) (x : Site) : (s.setSite p x).poison = s.poison := rfl
@[simp] theorem State.setSite_wrong (s : State) (p : Nat) (x : Site) : (s.setSite p x).wrong = s.wrong := rfl
@[simp] theorem State.setSite_tags (s : State) (p : Nat) (x : Site) : (s.setSite p x).tags = s.tags := rfl
@[simp] theorem State.setSite_keys (s : State) (p : Nat) (x : Site) : (s.setSite p x).keys = s.keys := rfl
@[simp] theorem State.setSite_fuses (s : State) (p : Nat) (x : Site) : (s.setSite p x).fuses = s.fuses := rfl
@[simp] theorem State.setSite_dies (s : State) (p : Nat) (x : Site) : (s.setSite p x).dies = s.dies := rfl
@[simp] theorem State.setSite_mds (s : State) (p : Nat) (x : Site) : (s.setSite p x).mds = s.mds := rfl
@[simp] theorem State.setSite_iod (s : State) (p : Nat) (x : Site) : (s.setSite p x).iod = s.iod := rfl
@[simp] theorem State.setSite_turnstiles (s : State) (p : Nat) (x : Site) : (s.setSite p x).turnstiles = s.turnstiles := rfl
@[simp] theorem State.setSite_objects (s : State) (p : Nat) (x : Site) : (s.setSite p x).objects = s.objects := rfl
@[simp] theorem State.setSite_copies (s : State) (p : Nat) (x : Site) : (s.setSite p x).copies = s.copies := rfl
@[simp] theorem State.setSite_resv (s : State) (p : Nat) (x : Site) : (s.setSite p x).resv = s.resv := rfl
@[simp] theorem State.setSite_routers (s : State) (p : Nat) (x : Site) : (s.setSite p x).routers = s.routers := rfl
@[simp] theorem State.setSite_packets (s : State) (p : Nat) (x : Site) : (s.setSite p x).packets = s.packets := rfl
@[simp] theorem State.setSite_plans (s : State) (p : Nat) (x : Site) : (s.setSite p x).plans = s.plans := rfl
@[simp] theorem State.setSite_shared (s : State) (p : Nat) (x : Site) : (s.setSite p x).shared = s.shared := rfl
@[simp] theorem State.setSite_refusedImages (s : State) (p : Nat) (x : Site) : (s.setSite p x).refusedImages = s.refusedImages := rfl
@[simp] theorem State.setSite_sends (s : State) (p : Nat) (x : Site) : (s.setSite p x).sends = s.sends := rfl
@[simp] theorem State.setSite_barSends (s : State) (p : Nat) (x : Site) : (s.setSite p x).barSends = s.barSends := rfl
@[simp] theorem State.setSite_power (s : State) (p : Nat) (x : Site) : (s.setSite p x).power = s.power := rfl
@[simp] theorem State.setSite_cycle (s : State) (p : Nat) (x : Site) : (s.setSite p x).cycle = s.cycle := rfl
@[simp] theorem State.setSite_cur (s : State) (p : Nat) (x : Site) : (s.setSite p x).cur = s.cur := rfl
@[simp] theorem State.setSite_resumes (s : State) (p : Nat) (x : Site) : (s.setSite p x).resumes = s.resumes := rfl
@[simp] theorem State.setSite_inputs (s : State) (p : Nat) (x : Site) : (s.setSite p x).inputs = s.inputs := rfl
@[simp] theorem State.setSite_work (s : State) (p : Nat) (x : Site) : (s.setSite p x).work = s.work := rfl
@[simp] theorem State.setSite_evTurn (s : State) (p : Nat) (x : Site) : (s.setSite p x).evTurn = s.evTurn := rfl
@[simp] theorem State.setSite_draws (s : State) (p : Nat) (x : Site) : (s.setSite p x).draws = s.draws := rfl
@[simp] theorem State.setSite_nextId (s : State) (p : Nat) (x : Site) : (s.setSite p x).nextId = s.nextId := rfl

/-! State.modSite changes sites only. -/

@[simp] theorem State.modSite_slots (s : State) (p : Nat) (f : Site → Site) : (s.modSite p f).slots = s.slots := rfl
@[simp] theorem State.modSite_banks (s : State) (p : Nat) (f : Site → Site) : (s.modSite p f).banks = s.banks := rfl
@[simp] theorem State.modSite_mem (s : State) (p : Nat) (f : Site → Site) : (s.modSite p f).mem = s.mem := rfl
@[simp] theorem State.modSite_poison (s : State) (p : Nat) (f : Site → Site) : (s.modSite p f).poison = s.poison := rfl
@[simp] theorem State.modSite_wrong (s : State) (p : Nat) (f : Site → Site) : (s.modSite p f).wrong = s.wrong := rfl
@[simp] theorem State.modSite_tags (s : State) (p : Nat) (f : Site → Site) : (s.modSite p f).tags = s.tags := rfl
@[simp] theorem State.modSite_keys (s : State) (p : Nat) (f : Site → Site) : (s.modSite p f).keys = s.keys := rfl
@[simp] theorem State.modSite_fuses (s : State) (p : Nat) (f : Site → Site) : (s.modSite p f).fuses = s.fuses := rfl
@[simp] theorem State.modSite_dies (s : State) (p : Nat) (f : Site → Site) : (s.modSite p f).dies = s.dies := rfl
@[simp] theorem State.modSite_mds (s : State) (p : Nat) (f : Site → Site) : (s.modSite p f).mds = s.mds := rfl
@[simp] theorem State.modSite_iod (s : State) (p : Nat) (f : Site → Site) : (s.modSite p f).iod = s.iod := rfl
@[simp] theorem State.modSite_turnstiles (s : State) (p : Nat) (f : Site → Site) : (s.modSite p f).turnstiles = s.turnstiles := rfl
@[simp] theorem State.modSite_objects (s : State) (p : Nat) (f : Site → Site) : (s.modSite p f).objects = s.objects := rfl
@[simp] theorem State.modSite_copies (s : State) (p : Nat) (f : Site → Site) : (s.modSite p f).copies = s.copies := rfl
@[simp] theorem State.modSite_resv (s : State) (p : Nat) (f : Site → Site) : (s.modSite p f).resv = s.resv := rfl
@[simp] theorem State.modSite_routers (s : State) (p : Nat) (f : Site → Site) : (s.modSite p f).routers = s.routers := rfl
@[simp] theorem State.modSite_packets (s : State) (p : Nat) (f : Site → Site) : (s.modSite p f).packets = s.packets := rfl
@[simp] theorem State.modSite_plans (s : State) (p : Nat) (f : Site → Site) : (s.modSite p f).plans = s.plans := rfl
@[simp] theorem State.modSite_shared (s : State) (p : Nat) (f : Site → Site) : (s.modSite p f).shared = s.shared := rfl
@[simp] theorem State.modSite_refusedImages (s : State) (p : Nat) (f : Site → Site) : (s.modSite p f).refusedImages = s.refusedImages := rfl
@[simp] theorem State.modSite_sends (s : State) (p : Nat) (f : Site → Site) : (s.modSite p f).sends = s.sends := rfl
@[simp] theorem State.modSite_barSends (s : State) (p : Nat) (f : Site → Site) : (s.modSite p f).barSends = s.barSends := rfl
@[simp] theorem State.modSite_power (s : State) (p : Nat) (f : Site → Site) : (s.modSite p f).power = s.power := rfl
@[simp] theorem State.modSite_cycle (s : State) (p : Nat) (f : Site → Site) : (s.modSite p f).cycle = s.cycle := rfl
@[simp] theorem State.modSite_cur (s : State) (p : Nat) (f : Site → Site) : (s.modSite p f).cur = s.cur := rfl
@[simp] theorem State.modSite_resumes (s : State) (p : Nat) (f : Site → Site) : (s.modSite p f).resumes = s.resumes := rfl
@[simp] theorem State.modSite_inputs (s : State) (p : Nat) (f : Site → Site) : (s.modSite p f).inputs = s.inputs := rfl
@[simp] theorem State.modSite_work (s : State) (p : Nat) (f : Site → Site) : (s.modSite p f).work = s.work := rfl
@[simp] theorem State.modSite_evTurn (s : State) (p : Nat) (f : Site → Site) : (s.modSite p f).evTurn = s.evTurn := rfl
@[simp] theorem State.modSite_draws (s : State) (p : Nat) (f : Site → Site) : (s.modSite p f).draws = s.draws := rfl
@[simp] theorem State.modSite_nextId (s : State) (p : Nat) (f : Site → Site) : (s.modSite p f).nextId = s.nextId := rfl

/-! State.setBank changes banks only. -/

@[simp] theorem State.setBank_slots (s : State) (b : Nat) (x : Bank) : (s.setBank b x).slots = s.slots := rfl
@[simp] theorem State.setBank_sites (s : State) (b : Nat) (x : Bank) : (s.setBank b x).sites = s.sites := rfl
@[simp] theorem State.setBank_mem (s : State) (b : Nat) (x : Bank) : (s.setBank b x).mem = s.mem := rfl
@[simp] theorem State.setBank_poison (s : State) (b : Nat) (x : Bank) : (s.setBank b x).poison = s.poison := rfl
@[simp] theorem State.setBank_wrong (s : State) (b : Nat) (x : Bank) : (s.setBank b x).wrong = s.wrong := rfl
@[simp] theorem State.setBank_tags (s : State) (b : Nat) (x : Bank) : (s.setBank b x).tags = s.tags := rfl
@[simp] theorem State.setBank_keys (s : State) (b : Nat) (x : Bank) : (s.setBank b x).keys = s.keys := rfl
@[simp] theorem State.setBank_fuses (s : State) (b : Nat) (x : Bank) : (s.setBank b x).fuses = s.fuses := rfl
@[simp] theorem State.setBank_dies (s : State) (b : Nat) (x : Bank) : (s.setBank b x).dies = s.dies := rfl
@[simp] theorem State.setBank_mds (s : State) (b : Nat) (x : Bank) : (s.setBank b x).mds = s.mds := rfl
@[simp] theorem State.setBank_iod (s : State) (b : Nat) (x : Bank) : (s.setBank b x).iod = s.iod := rfl
@[simp] theorem State.setBank_turnstiles (s : State) (b : Nat) (x : Bank) : (s.setBank b x).turnstiles = s.turnstiles := rfl
@[simp] theorem State.setBank_objects (s : State) (b : Nat) (x : Bank) : (s.setBank b x).objects = s.objects := rfl
@[simp] theorem State.setBank_copies (s : State) (b : Nat) (x : Bank) : (s.setBank b x).copies = s.copies := rfl
@[simp] theorem State.setBank_resv (s : State) (b : Nat) (x : Bank) : (s.setBank b x).resv = s.resv := rfl
@[simp] theorem State.setBank_routers (s : State) (b : Nat) (x : Bank) : (s.setBank b x).routers = s.routers := rfl
@[simp] theorem State.setBank_packets (s : State) (b : Nat) (x : Bank) : (s.setBank b x).packets = s.packets := rfl
@[simp] theorem State.setBank_plans (s : State) (b : Nat) (x : Bank) : (s.setBank b x).plans = s.plans := rfl
@[simp] theorem State.setBank_shared (s : State) (b : Nat) (x : Bank) : (s.setBank b x).shared = s.shared := rfl
@[simp] theorem State.setBank_refusedImages (s : State) (b : Nat) (x : Bank) : (s.setBank b x).refusedImages = s.refusedImages := rfl
@[simp] theorem State.setBank_sends (s : State) (b : Nat) (x : Bank) : (s.setBank b x).sends = s.sends := rfl
@[simp] theorem State.setBank_barSends (s : State) (b : Nat) (x : Bank) : (s.setBank b x).barSends = s.barSends := rfl
@[simp] theorem State.setBank_power (s : State) (b : Nat) (x : Bank) : (s.setBank b x).power = s.power := rfl
@[simp] theorem State.setBank_cycle (s : State) (b : Nat) (x : Bank) : (s.setBank b x).cycle = s.cycle := rfl
@[simp] theorem State.setBank_cur (s : State) (b : Nat) (x : Bank) : (s.setBank b x).cur = s.cur := rfl
@[simp] theorem State.setBank_resumes (s : State) (b : Nat) (x : Bank) : (s.setBank b x).resumes = s.resumes := rfl
@[simp] theorem State.setBank_inputs (s : State) (b : Nat) (x : Bank) : (s.setBank b x).inputs = s.inputs := rfl
@[simp] theorem State.setBank_work (s : State) (b : Nat) (x : Bank) : (s.setBank b x).work = s.work := rfl
@[simp] theorem State.setBank_evTurn (s : State) (b : Nat) (x : Bank) : (s.setBank b x).evTurn = s.evTurn := rfl
@[simp] theorem State.setBank_draws (s : State) (b : Nat) (x : Bank) : (s.setBank b x).draws = s.draws := rfl
@[simp] theorem State.setBank_nextId (s : State) (b : Nat) (x : Bank) : (s.setBank b x).nextId = s.nextId := rfl

/-! State.modBank changes banks only. -/

@[simp] theorem State.modBank_slots (s : State) (b : Nat) (f : Bank → Bank) : (s.modBank b f).slots = s.slots := rfl
@[simp] theorem State.modBank_sites (s : State) (b : Nat) (f : Bank → Bank) : (s.modBank b f).sites = s.sites := rfl
@[simp] theorem State.modBank_mem (s : State) (b : Nat) (f : Bank → Bank) : (s.modBank b f).mem = s.mem := rfl
@[simp] theorem State.modBank_poison (s : State) (b : Nat) (f : Bank → Bank) : (s.modBank b f).poison = s.poison := rfl
@[simp] theorem State.modBank_wrong (s : State) (b : Nat) (f : Bank → Bank) : (s.modBank b f).wrong = s.wrong := rfl
@[simp] theorem State.modBank_tags (s : State) (b : Nat) (f : Bank → Bank) : (s.modBank b f).tags = s.tags := rfl
@[simp] theorem State.modBank_keys (s : State) (b : Nat) (f : Bank → Bank) : (s.modBank b f).keys = s.keys := rfl
@[simp] theorem State.modBank_fuses (s : State) (b : Nat) (f : Bank → Bank) : (s.modBank b f).fuses = s.fuses := rfl
@[simp] theorem State.modBank_dies (s : State) (b : Nat) (f : Bank → Bank) : (s.modBank b f).dies = s.dies := rfl
@[simp] theorem State.modBank_mds (s : State) (b : Nat) (f : Bank → Bank) : (s.modBank b f).mds = s.mds := rfl
@[simp] theorem State.modBank_iod (s : State) (b : Nat) (f : Bank → Bank) : (s.modBank b f).iod = s.iod := rfl
@[simp] theorem State.modBank_turnstiles (s : State) (b : Nat) (f : Bank → Bank) : (s.modBank b f).turnstiles = s.turnstiles := rfl
@[simp] theorem State.modBank_objects (s : State) (b : Nat) (f : Bank → Bank) : (s.modBank b f).objects = s.objects := rfl
@[simp] theorem State.modBank_copies (s : State) (b : Nat) (f : Bank → Bank) : (s.modBank b f).copies = s.copies := rfl
@[simp] theorem State.modBank_resv (s : State) (b : Nat) (f : Bank → Bank) : (s.modBank b f).resv = s.resv := rfl
@[simp] theorem State.modBank_routers (s : State) (b : Nat) (f : Bank → Bank) : (s.modBank b f).routers = s.routers := rfl
@[simp] theorem State.modBank_packets (s : State) (b : Nat) (f : Bank → Bank) : (s.modBank b f).packets = s.packets := rfl
@[simp] theorem State.modBank_plans (s : State) (b : Nat) (f : Bank → Bank) : (s.modBank b f).plans = s.plans := rfl
@[simp] theorem State.modBank_shared (s : State) (b : Nat) (f : Bank → Bank) : (s.modBank b f).shared = s.shared := rfl
@[simp] theorem State.modBank_refusedImages (s : State) (b : Nat) (f : Bank → Bank) : (s.modBank b f).refusedImages = s.refusedImages := rfl
@[simp] theorem State.modBank_sends (s : State) (b : Nat) (f : Bank → Bank) : (s.modBank b f).sends = s.sends := rfl
@[simp] theorem State.modBank_barSends (s : State) (b : Nat) (f : Bank → Bank) : (s.modBank b f).barSends = s.barSends := rfl
@[simp] theorem State.modBank_power (s : State) (b : Nat) (f : Bank → Bank) : (s.modBank b f).power = s.power := rfl
@[simp] theorem State.modBank_cycle (s : State) (b : Nat) (f : Bank → Bank) : (s.modBank b f).cycle = s.cycle := rfl
@[simp] theorem State.modBank_cur (s : State) (b : Nat) (f : Bank → Bank) : (s.modBank b f).cur = s.cur := rfl
@[simp] theorem State.modBank_resumes (s : State) (b : Nat) (f : Bank → Bank) : (s.modBank b f).resumes = s.resumes := rfl
@[simp] theorem State.modBank_inputs (s : State) (b : Nat) (f : Bank → Bank) : (s.modBank b f).inputs = s.inputs := rfl
@[simp] theorem State.modBank_work (s : State) (b : Nat) (f : Bank → Bank) : (s.modBank b f).work = s.work := rfl
@[simp] theorem State.modBank_evTurn (s : State) (b : Nat) (f : Bank → Bank) : (s.modBank b f).evTurn = s.evTurn := rfl
@[simp] theorem State.modBank_draws (s : State) (b : Nat) (f : Bank → Bank) : (s.modBank b f).draws = s.draws := rfl
@[simp] theorem State.modBank_nextId (s : State) (b : Nat) (f : Bank → Bank) : (s.modBank b f).nextId = s.nextId := rfl

/-! State.modDie changes dies only. -/

@[simp] theorem State.modDie_slots (s : State) (d : Nat) (f : Die → Die) : (s.modDie d f).slots = s.slots := rfl
@[simp] theorem State.modDie_sites (s : State) (d : Nat) (f : Die → Die) : (s.modDie d f).sites = s.sites := rfl
@[simp] theorem State.modDie_banks (s : State) (d : Nat) (f : Die → Die) : (s.modDie d f).banks = s.banks := rfl
@[simp] theorem State.modDie_mem (s : State) (d : Nat) (f : Die → Die) : (s.modDie d f).mem = s.mem := rfl
@[simp] theorem State.modDie_poison (s : State) (d : Nat) (f : Die → Die) : (s.modDie d f).poison = s.poison := rfl
@[simp] theorem State.modDie_wrong (s : State) (d : Nat) (f : Die → Die) : (s.modDie d f).wrong = s.wrong := rfl
@[simp] theorem State.modDie_tags (s : State) (d : Nat) (f : Die → Die) : (s.modDie d f).tags = s.tags := rfl
@[simp] theorem State.modDie_keys (s : State) (d : Nat) (f : Die → Die) : (s.modDie d f).keys = s.keys := rfl
@[simp] theorem State.modDie_fuses (s : State) (d : Nat) (f : Die → Die) : (s.modDie d f).fuses = s.fuses := rfl
@[simp] theorem State.modDie_mds (s : State) (d : Nat) (f : Die → Die) : (s.modDie d f).mds = s.mds := rfl
@[simp] theorem State.modDie_iod (s : State) (d : Nat) (f : Die → Die) : (s.modDie d f).iod = s.iod := rfl
@[simp] theorem State.modDie_turnstiles (s : State) (d : Nat) (f : Die → Die) : (s.modDie d f).turnstiles = s.turnstiles := rfl
@[simp] theorem State.modDie_objects (s : State) (d : Nat) (f : Die → Die) : (s.modDie d f).objects = s.objects := rfl
@[simp] theorem State.modDie_copies (s : State) (d : Nat) (f : Die → Die) : (s.modDie d f).copies = s.copies := rfl
@[simp] theorem State.modDie_resv (s : State) (d : Nat) (f : Die → Die) : (s.modDie d f).resv = s.resv := rfl
@[simp] theorem State.modDie_routers (s : State) (d : Nat) (f : Die → Die) : (s.modDie d f).routers = s.routers := rfl
@[simp] theorem State.modDie_packets (s : State) (d : Nat) (f : Die → Die) : (s.modDie d f).packets = s.packets := rfl
@[simp] theorem State.modDie_plans (s : State) (d : Nat) (f : Die → Die) : (s.modDie d f).plans = s.plans := rfl
@[simp] theorem State.modDie_shared (s : State) (d : Nat) (f : Die → Die) : (s.modDie d f).shared = s.shared := rfl
@[simp] theorem State.modDie_refusedImages (s : State) (d : Nat) (f : Die → Die) : (s.modDie d f).refusedImages = s.refusedImages := rfl
@[simp] theorem State.modDie_sends (s : State) (d : Nat) (f : Die → Die) : (s.modDie d f).sends = s.sends := rfl
@[simp] theorem State.modDie_barSends (s : State) (d : Nat) (f : Die → Die) : (s.modDie d f).barSends = s.barSends := rfl
@[simp] theorem State.modDie_power (s : State) (d : Nat) (f : Die → Die) : (s.modDie d f).power = s.power := rfl
@[simp] theorem State.modDie_cycle (s : State) (d : Nat) (f : Die → Die) : (s.modDie d f).cycle = s.cycle := rfl
@[simp] theorem State.modDie_cur (s : State) (d : Nat) (f : Die → Die) : (s.modDie d f).cur = s.cur := rfl
@[simp] theorem State.modDie_resumes (s : State) (d : Nat) (f : Die → Die) : (s.modDie d f).resumes = s.resumes := rfl
@[simp] theorem State.modDie_inputs (s : State) (d : Nat) (f : Die → Die) : (s.modDie d f).inputs = s.inputs := rfl
@[simp] theorem State.modDie_work (s : State) (d : Nat) (f : Die → Die) : (s.modDie d f).work = s.work := rfl
@[simp] theorem State.modDie_evTurn (s : State) (d : Nat) (f : Die → Die) : (s.modDie d f).evTurn = s.evTurn := rfl
@[simp] theorem State.modDie_draws (s : State) (d : Nat) (f : Die → Die) : (s.modDie d f).draws = s.draws := rfl
@[simp] theorem State.modDie_nextId (s : State) (d : Nat) (f : Die → Die) : (s.modDie d f).nextId = s.nextId := rfl

/-! State.modMd changes mds only. -/

@[simp] theorem State.modMd_slots (s : State) (d : Nat) (f : MemDie → MemDie) : (s.modMd d f).slots = s.slots := rfl
@[simp] theorem State.modMd_sites (s : State) (d : Nat) (f : MemDie → MemDie) : (s.modMd d f).sites = s.sites := rfl
@[simp] theorem State.modMd_banks (s : State) (d : Nat) (f : MemDie → MemDie) : (s.modMd d f).banks = s.banks := rfl
@[simp] theorem State.modMd_mem (s : State) (d : Nat) (f : MemDie → MemDie) : (s.modMd d f).mem = s.mem := rfl
@[simp] theorem State.modMd_poison (s : State) (d : Nat) (f : MemDie → MemDie) : (s.modMd d f).poison = s.poison := rfl
@[simp] theorem State.modMd_wrong (s : State) (d : Nat) (f : MemDie → MemDie) : (s.modMd d f).wrong = s.wrong := rfl
@[simp] theorem State.modMd_tags (s : State) (d : Nat) (f : MemDie → MemDie) : (s.modMd d f).tags = s.tags := rfl
@[simp] theorem State.modMd_keys (s : State) (d : Nat) (f : MemDie → MemDie) : (s.modMd d f).keys = s.keys := rfl
@[simp] theorem State.modMd_fuses (s : State) (d : Nat) (f : MemDie → MemDie) : (s.modMd d f).fuses = s.fuses := rfl
@[simp] theorem State.modMd_dies (s : State) (d : Nat) (f : MemDie → MemDie) : (s.modMd d f).dies = s.dies := rfl
@[simp] theorem State.modMd_iod (s : State) (d : Nat) (f : MemDie → MemDie) : (s.modMd d f).iod = s.iod := rfl
@[simp] theorem State.modMd_turnstiles (s : State) (d : Nat) (f : MemDie → MemDie) : (s.modMd d f).turnstiles = s.turnstiles := rfl
@[simp] theorem State.modMd_objects (s : State) (d : Nat) (f : MemDie → MemDie) : (s.modMd d f).objects = s.objects := rfl
@[simp] theorem State.modMd_copies (s : State) (d : Nat) (f : MemDie → MemDie) : (s.modMd d f).copies = s.copies := rfl
@[simp] theorem State.modMd_resv (s : State) (d : Nat) (f : MemDie → MemDie) : (s.modMd d f).resv = s.resv := rfl
@[simp] theorem State.modMd_routers (s : State) (d : Nat) (f : MemDie → MemDie) : (s.modMd d f).routers = s.routers := rfl
@[simp] theorem State.modMd_packets (s : State) (d : Nat) (f : MemDie → MemDie) : (s.modMd d f).packets = s.packets := rfl
@[simp] theorem State.modMd_plans (s : State) (d : Nat) (f : MemDie → MemDie) : (s.modMd d f).plans = s.plans := rfl
@[simp] theorem State.modMd_shared (s : State) (d : Nat) (f : MemDie → MemDie) : (s.modMd d f).shared = s.shared := rfl
@[simp] theorem State.modMd_refusedImages (s : State) (d : Nat) (f : MemDie → MemDie) : (s.modMd d f).refusedImages = s.refusedImages := rfl
@[simp] theorem State.modMd_sends (s : State) (d : Nat) (f : MemDie → MemDie) : (s.modMd d f).sends = s.sends := rfl
@[simp] theorem State.modMd_barSends (s : State) (d : Nat) (f : MemDie → MemDie) : (s.modMd d f).barSends = s.barSends := rfl
@[simp] theorem State.modMd_power (s : State) (d : Nat) (f : MemDie → MemDie) : (s.modMd d f).power = s.power := rfl
@[simp] theorem State.modMd_cycle (s : State) (d : Nat) (f : MemDie → MemDie) : (s.modMd d f).cycle = s.cycle := rfl
@[simp] theorem State.modMd_cur (s : State) (d : Nat) (f : MemDie → MemDie) : (s.modMd d f).cur = s.cur := rfl
@[simp] theorem State.modMd_resumes (s : State) (d : Nat) (f : MemDie → MemDie) : (s.modMd d f).resumes = s.resumes := rfl
@[simp] theorem State.modMd_inputs (s : State) (d : Nat) (f : MemDie → MemDie) : (s.modMd d f).inputs = s.inputs := rfl
@[simp] theorem State.modMd_work (s : State) (d : Nat) (f : MemDie → MemDie) : (s.modMd d f).work = s.work := rfl
@[simp] theorem State.modMd_evTurn (s : State) (d : Nat) (f : MemDie → MemDie) : (s.modMd d f).evTurn = s.evTurn := rfl
@[simp] theorem State.modMd_draws (s : State) (d : Nat) (f : MemDie → MemDie) : (s.modMd d f).draws = s.draws := rfl
@[simp] theorem State.modMd_nextId (s : State) (d : Nat) (f : MemDie → MemDie) : (s.modMd d f).nextId = s.nextId := rfl

/-! State.modTst changes turnstiles only. -/

@[simp] theorem State.modTst_slots (s : State) (n : Nat) (f : Turnstile → Turnstile) : (s.modTst n f).slots = s.slots := rfl
@[simp] theorem State.modTst_sites (s : State) (n : Nat) (f : Turnstile → Turnstile) : (s.modTst n f).sites = s.sites := rfl
@[simp] theorem State.modTst_banks (s : State) (n : Nat) (f : Turnstile → Turnstile) : (s.modTst n f).banks = s.banks := rfl
@[simp] theorem State.modTst_mem (s : State) (n : Nat) (f : Turnstile → Turnstile) : (s.modTst n f).mem = s.mem := rfl
@[simp] theorem State.modTst_poison (s : State) (n : Nat) (f : Turnstile → Turnstile) : (s.modTst n f).poison = s.poison := rfl
@[simp] theorem State.modTst_wrong (s : State) (n : Nat) (f : Turnstile → Turnstile) : (s.modTst n f).wrong = s.wrong := rfl
@[simp] theorem State.modTst_tags (s : State) (n : Nat) (f : Turnstile → Turnstile) : (s.modTst n f).tags = s.tags := rfl
@[simp] theorem State.modTst_keys (s : State) (n : Nat) (f : Turnstile → Turnstile) : (s.modTst n f).keys = s.keys := rfl
@[simp] theorem State.modTst_fuses (s : State) (n : Nat) (f : Turnstile → Turnstile) : (s.modTst n f).fuses = s.fuses := rfl
@[simp] theorem State.modTst_dies (s : State) (n : Nat) (f : Turnstile → Turnstile) : (s.modTst n f).dies = s.dies := rfl
@[simp] theorem State.modTst_mds (s : State) (n : Nat) (f : Turnstile → Turnstile) : (s.modTst n f).mds = s.mds := rfl
@[simp] theorem State.modTst_iod (s : State) (n : Nat) (f : Turnstile → Turnstile) : (s.modTst n f).iod = s.iod := rfl
@[simp] theorem State.modTst_objects (s : State) (n : Nat) (f : Turnstile → Turnstile) : (s.modTst n f).objects = s.objects := rfl
@[simp] theorem State.modTst_copies (s : State) (n : Nat) (f : Turnstile → Turnstile) : (s.modTst n f).copies = s.copies := rfl
@[simp] theorem State.modTst_resv (s : State) (n : Nat) (f : Turnstile → Turnstile) : (s.modTst n f).resv = s.resv := rfl
@[simp] theorem State.modTst_routers (s : State) (n : Nat) (f : Turnstile → Turnstile) : (s.modTst n f).routers = s.routers := rfl
@[simp] theorem State.modTst_packets (s : State) (n : Nat) (f : Turnstile → Turnstile) : (s.modTst n f).packets = s.packets := rfl
@[simp] theorem State.modTst_plans (s : State) (n : Nat) (f : Turnstile → Turnstile) : (s.modTst n f).plans = s.plans := rfl
@[simp] theorem State.modTst_shared (s : State) (n : Nat) (f : Turnstile → Turnstile) : (s.modTst n f).shared = s.shared := rfl
@[simp] theorem State.modTst_refusedImages (s : State) (n : Nat) (f : Turnstile → Turnstile) : (s.modTst n f).refusedImages = s.refusedImages := rfl
@[simp] theorem State.modTst_sends (s : State) (n : Nat) (f : Turnstile → Turnstile) : (s.modTst n f).sends = s.sends := rfl
@[simp] theorem State.modTst_barSends (s : State) (n : Nat) (f : Turnstile → Turnstile) : (s.modTst n f).barSends = s.barSends := rfl
@[simp] theorem State.modTst_power (s : State) (n : Nat) (f : Turnstile → Turnstile) : (s.modTst n f).power = s.power := rfl
@[simp] theorem State.modTst_cycle (s : State) (n : Nat) (f : Turnstile → Turnstile) : (s.modTst n f).cycle = s.cycle := rfl
@[simp] theorem State.modTst_cur (s : State) (n : Nat) (f : Turnstile → Turnstile) : (s.modTst n f).cur = s.cur := rfl
@[simp] theorem State.modTst_resumes (s : State) (n : Nat) (f : Turnstile → Turnstile) : (s.modTst n f).resumes = s.resumes := rfl
@[simp] theorem State.modTst_inputs (s : State) (n : Nat) (f : Turnstile → Turnstile) : (s.modTst n f).inputs = s.inputs := rfl
@[simp] theorem State.modTst_work (s : State) (n : Nat) (f : Turnstile → Turnstile) : (s.modTst n f).work = s.work := rfl
@[simp] theorem State.modTst_evTurn (s : State) (n : Nat) (f : Turnstile → Turnstile) : (s.modTst n f).evTurn = s.evTurn := rfl
@[simp] theorem State.modTst_draws (s : State) (n : Nat) (f : Turnstile → Turnstile) : (s.modTst n f).draws = s.draws := rfl
@[simp] theorem State.modTst_nextId (s : State) (n : Nat) (f : Turnstile → Turnstile) : (s.modTst n f).nextId = s.nextId := rfl

/-! State.modObj changes objects only. -/

@[simp] theorem State.modObj_slots (s : State) (n : Nat) (f : Object → Object) : (s.modObj n f).slots = s.slots := rfl
@[simp] theorem State.modObj_sites (s : State) (n : Nat) (f : Object → Object) : (s.modObj n f).sites = s.sites := rfl
@[simp] theorem State.modObj_banks (s : State) (n : Nat) (f : Object → Object) : (s.modObj n f).banks = s.banks := rfl
@[simp] theorem State.modObj_mem (s : State) (n : Nat) (f : Object → Object) : (s.modObj n f).mem = s.mem := rfl
@[simp] theorem State.modObj_poison (s : State) (n : Nat) (f : Object → Object) : (s.modObj n f).poison = s.poison := rfl
@[simp] theorem State.modObj_wrong (s : State) (n : Nat) (f : Object → Object) : (s.modObj n f).wrong = s.wrong := rfl
@[simp] theorem State.modObj_tags (s : State) (n : Nat) (f : Object → Object) : (s.modObj n f).tags = s.tags := rfl
@[simp] theorem State.modObj_keys (s : State) (n : Nat) (f : Object → Object) : (s.modObj n f).keys = s.keys := rfl
@[simp] theorem State.modObj_fuses (s : State) (n : Nat) (f : Object → Object) : (s.modObj n f).fuses = s.fuses := rfl
@[simp] theorem State.modObj_dies (s : State) (n : Nat) (f : Object → Object) : (s.modObj n f).dies = s.dies := rfl
@[simp] theorem State.modObj_mds (s : State) (n : Nat) (f : Object → Object) : (s.modObj n f).mds = s.mds := rfl
@[simp] theorem State.modObj_iod (s : State) (n : Nat) (f : Object → Object) : (s.modObj n f).iod = s.iod := rfl
@[simp] theorem State.modObj_turnstiles (s : State) (n : Nat) (f : Object → Object) : (s.modObj n f).turnstiles = s.turnstiles := rfl
@[simp] theorem State.modObj_copies (s : State) (n : Nat) (f : Object → Object) : (s.modObj n f).copies = s.copies := rfl
@[simp] theorem State.modObj_resv (s : State) (n : Nat) (f : Object → Object) : (s.modObj n f).resv = s.resv := rfl
@[simp] theorem State.modObj_routers (s : State) (n : Nat) (f : Object → Object) : (s.modObj n f).routers = s.routers := rfl
@[simp] theorem State.modObj_packets (s : State) (n : Nat) (f : Object → Object) : (s.modObj n f).packets = s.packets := rfl
@[simp] theorem State.modObj_plans (s : State) (n : Nat) (f : Object → Object) : (s.modObj n f).plans = s.plans := rfl
@[simp] theorem State.modObj_shared (s : State) (n : Nat) (f : Object → Object) : (s.modObj n f).shared = s.shared := rfl
@[simp] theorem State.modObj_refusedImages (s : State) (n : Nat) (f : Object → Object) : (s.modObj n f).refusedImages = s.refusedImages := rfl
@[simp] theorem State.modObj_sends (s : State) (n : Nat) (f : Object → Object) : (s.modObj n f).sends = s.sends := rfl
@[simp] theorem State.modObj_barSends (s : State) (n : Nat) (f : Object → Object) : (s.modObj n f).barSends = s.barSends := rfl
@[simp] theorem State.modObj_power (s : State) (n : Nat) (f : Object → Object) : (s.modObj n f).power = s.power := rfl
@[simp] theorem State.modObj_cycle (s : State) (n : Nat) (f : Object → Object) : (s.modObj n f).cycle = s.cycle := rfl
@[simp] theorem State.modObj_cur (s : State) (n : Nat) (f : Object → Object) : (s.modObj n f).cur = s.cur := rfl
@[simp] theorem State.modObj_resumes (s : State) (n : Nat) (f : Object → Object) : (s.modObj n f).resumes = s.resumes := rfl
@[simp] theorem State.modObj_inputs (s : State) (n : Nat) (f : Object → Object) : (s.modObj n f).inputs = s.inputs := rfl
@[simp] theorem State.modObj_work (s : State) (n : Nat) (f : Object → Object) : (s.modObj n f).work = s.work := rfl
@[simp] theorem State.modObj_evTurn (s : State) (n : Nat) (f : Object → Object) : (s.modObj n f).evTurn = s.evTurn := rfl
@[simp] theorem State.modObj_draws (s : State) (n : Nat) (f : Object → Object) : (s.modObj n f).draws = s.draws := rfl
@[simp] theorem State.modObj_nextId (s : State) (n : Nat) (f : Object → Object) : (s.modObj n f).nextId = s.nextId := rfl

/-! State.modIod changes iod only. -/

@[simp] theorem State.modIod_slots (s : State) (f : Iod → Iod) : (s.modIod f).slots = s.slots := rfl
@[simp] theorem State.modIod_sites (s : State) (f : Iod → Iod) : (s.modIod f).sites = s.sites := rfl
@[simp] theorem State.modIod_banks (s : State) (f : Iod → Iod) : (s.modIod f).banks = s.banks := rfl
@[simp] theorem State.modIod_mem (s : State) (f : Iod → Iod) : (s.modIod f).mem = s.mem := rfl
@[simp] theorem State.modIod_poison (s : State) (f : Iod → Iod) : (s.modIod f).poison = s.poison := rfl
@[simp] theorem State.modIod_wrong (s : State) (f : Iod → Iod) : (s.modIod f).wrong = s.wrong := rfl
@[simp] theorem State.modIod_tags (s : State) (f : Iod → Iod) : (s.modIod f).tags = s.tags := rfl
@[simp] theorem State.modIod_keys (s : State) (f : Iod → Iod) : (s.modIod f).keys = s.keys := rfl
@[simp] theorem State.modIod_fuses (s : State) (f : Iod → Iod) : (s.modIod f).fuses = s.fuses := rfl
@[simp] theorem State.modIod_dies (s : State) (f : Iod → Iod) : (s.modIod f).dies = s.dies := rfl
@[simp] theorem State.modIod_mds (s : State) (f : Iod → Iod) : (s.modIod f).mds = s.mds := rfl
@[simp] theorem State.modIod_turnstiles (s : State) (f : Iod → Iod) : (s.modIod f).turnstiles = s.turnstiles := rfl
@[simp] theorem State.modIod_objects (s : State) (f : Iod → Iod) : (s.modIod f).objects = s.objects := rfl
@[simp] theorem State.modIod_copies (s : State) (f : Iod → Iod) : (s.modIod f).copies = s.copies := rfl
@[simp] theorem State.modIod_resv (s : State) (f : Iod → Iod) : (s.modIod f).resv = s.resv := rfl
@[simp] theorem State.modIod_routers (s : State) (f : Iod → Iod) : (s.modIod f).routers = s.routers := rfl
@[simp] theorem State.modIod_packets (s : State) (f : Iod → Iod) : (s.modIod f).packets = s.packets := rfl
@[simp] theorem State.modIod_plans (s : State) (f : Iod → Iod) : (s.modIod f).plans = s.plans := rfl
@[simp] theorem State.modIod_shared (s : State) (f : Iod → Iod) : (s.modIod f).shared = s.shared := rfl
@[simp] theorem State.modIod_refusedImages (s : State) (f : Iod → Iod) : (s.modIod f).refusedImages = s.refusedImages := rfl
@[simp] theorem State.modIod_sends (s : State) (f : Iod → Iod) : (s.modIod f).sends = s.sends := rfl
@[simp] theorem State.modIod_barSends (s : State) (f : Iod → Iod) : (s.modIod f).barSends = s.barSends := rfl
@[simp] theorem State.modIod_power (s : State) (f : Iod → Iod) : (s.modIod f).power = s.power := rfl
@[simp] theorem State.modIod_cycle (s : State) (f : Iod → Iod) : (s.modIod f).cycle = s.cycle := rfl
@[simp] theorem State.modIod_cur (s : State) (f : Iod → Iod) : (s.modIod f).cur = s.cur := rfl
@[simp] theorem State.modIod_resumes (s : State) (f : Iod → Iod) : (s.modIod f).resumes = s.resumes := rfl
@[simp] theorem State.modIod_inputs (s : State) (f : Iod → Iod) : (s.modIod f).inputs = s.inputs := rfl
@[simp] theorem State.modIod_work (s : State) (f : Iod → Iod) : (s.modIod f).work = s.work := rfl
@[simp] theorem State.modIod_evTurn (s : State) (f : Iod → Iod) : (s.modIod f).evTurn = s.evTurn := rfl
@[simp] theorem State.modIod_draws (s : State) (f : Iod → Iod) : (s.modIod f).draws = s.draws := rfl
@[simp] theorem State.modIod_nextId (s : State) (f : Iod → Iod) : (s.modIod f).nextId = s.nextId := rfl

/-! State.charge changes iod only. -/

@[simp] theorem State.charge_slots (s : State) (a i n : Nat) : (s.charge a i n).slots = s.slots := rfl
@[simp] theorem State.charge_sites (s : State) (a i n : Nat) : (s.charge a i n).sites = s.sites := rfl
@[simp] theorem State.charge_banks (s : State) (a i n : Nat) : (s.charge a i n).banks = s.banks := rfl
@[simp] theorem State.charge_mem (s : State) (a i n : Nat) : (s.charge a i n).mem = s.mem := rfl
@[simp] theorem State.charge_poison (s : State) (a i n : Nat) : (s.charge a i n).poison = s.poison := rfl
@[simp] theorem State.charge_wrong (s : State) (a i n : Nat) : (s.charge a i n).wrong = s.wrong := rfl
@[simp] theorem State.charge_tags (s : State) (a i n : Nat) : (s.charge a i n).tags = s.tags := rfl
@[simp] theorem State.charge_keys (s : State) (a i n : Nat) : (s.charge a i n).keys = s.keys := rfl
@[simp] theorem State.charge_fuses (s : State) (a i n : Nat) : (s.charge a i n).fuses = s.fuses := rfl
@[simp] theorem State.charge_dies (s : State) (a i n : Nat) : (s.charge a i n).dies = s.dies := rfl
@[simp] theorem State.charge_mds (s : State) (a i n : Nat) : (s.charge a i n).mds = s.mds := rfl
@[simp] theorem State.charge_turnstiles (s : State) (a i n : Nat) : (s.charge a i n).turnstiles = s.turnstiles := rfl
@[simp] theorem State.charge_objects (s : State) (a i n : Nat) : (s.charge a i n).objects = s.objects := rfl
@[simp] theorem State.charge_copies (s : State) (a i n : Nat) : (s.charge a i n).copies = s.copies := rfl
@[simp] theorem State.charge_resv (s : State) (a i n : Nat) : (s.charge a i n).resv = s.resv := rfl
@[simp] theorem State.charge_routers (s : State) (a i n : Nat) : (s.charge a i n).routers = s.routers := rfl
@[simp] theorem State.charge_packets (s : State) (a i n : Nat) : (s.charge a i n).packets = s.packets := rfl
@[simp] theorem State.charge_plans (s : State) (a i n : Nat) : (s.charge a i n).plans = s.plans := rfl
@[simp] theorem State.charge_shared (s : State) (a i n : Nat) : (s.charge a i n).shared = s.shared := rfl
@[simp] theorem State.charge_refusedImages (s : State) (a i n : Nat) : (s.charge a i n).refusedImages = s.refusedImages := rfl
@[simp] theorem State.charge_sends (s : State) (a i n : Nat) : (s.charge a i n).sends = s.sends := rfl
@[simp] theorem State.charge_barSends (s : State) (a i n : Nat) : (s.charge a i n).barSends = s.barSends := rfl
@[simp] theorem State.charge_power (s : State) (a i n : Nat) : (s.charge a i n).power = s.power := rfl
@[simp] theorem State.charge_cycle (s : State) (a i n : Nat) : (s.charge a i n).cycle = s.cycle := rfl
@[simp] theorem State.charge_cur (s : State) (a i n : Nat) : (s.charge a i n).cur = s.cur := rfl
@[simp] theorem State.charge_resumes (s : State) (a i n : Nat) : (s.charge a i n).resumes = s.resumes := rfl
@[simp] theorem State.charge_inputs (s : State) (a i n : Nat) : (s.charge a i n).inputs = s.inputs := rfl
@[simp] theorem State.charge_work (s : State) (a i n : Nat) : (s.charge a i n).work = s.work := rfl
@[simp] theorem State.charge_evTurn (s : State) (a i n : Nat) : (s.charge a i n).evTurn = s.evTurn := rfl
@[simp] theorem State.charge_draws (s : State) (a i n : Nat) : (s.charge a i n).draws = s.draws := rfl
@[simp] theorem State.charge_nextId (s : State) (a i n : Nat) : (s.charge a i n).nextId = s.nextId := rfl

/-! State.post changes work only. -/

@[simp] theorem State.post_slots (s : State) (e : Instr) : (s.post e).slots = s.slots := rfl
@[simp] theorem State.post_sites (s : State) (e : Instr) : (s.post e).sites = s.sites := rfl
@[simp] theorem State.post_banks (s : State) (e : Instr) : (s.post e).banks = s.banks := rfl
@[simp] theorem State.post_mem (s : State) (e : Instr) : (s.post e).mem = s.mem := rfl
@[simp] theorem State.post_poison (s : State) (e : Instr) : (s.post e).poison = s.poison := rfl
@[simp] theorem State.post_wrong (s : State) (e : Instr) : (s.post e).wrong = s.wrong := rfl
@[simp] theorem State.post_tags (s : State) (e : Instr) : (s.post e).tags = s.tags := rfl
@[simp] theorem State.post_keys (s : State) (e : Instr) : (s.post e).keys = s.keys := rfl
@[simp] theorem State.post_fuses (s : State) (e : Instr) : (s.post e).fuses = s.fuses := rfl
@[simp] theorem State.post_dies (s : State) (e : Instr) : (s.post e).dies = s.dies := rfl
@[simp] theorem State.post_mds (s : State) (e : Instr) : (s.post e).mds = s.mds := rfl
@[simp] theorem State.post_iod (s : State) (e : Instr) : (s.post e).iod = s.iod := rfl
@[simp] theorem State.post_turnstiles (s : State) (e : Instr) : (s.post e).turnstiles = s.turnstiles := rfl
@[simp] theorem State.post_objects (s : State) (e : Instr) : (s.post e).objects = s.objects := rfl
@[simp] theorem State.post_copies (s : State) (e : Instr) : (s.post e).copies = s.copies := rfl
@[simp] theorem State.post_resv (s : State) (e : Instr) : (s.post e).resv = s.resv := rfl
@[simp] theorem State.post_routers (s : State) (e : Instr) : (s.post e).routers = s.routers := rfl
@[simp] theorem State.post_packets (s : State) (e : Instr) : (s.post e).packets = s.packets := rfl
@[simp] theorem State.post_plans (s : State) (e : Instr) : (s.post e).plans = s.plans := rfl
@[simp] theorem State.post_shared (s : State) (e : Instr) : (s.post e).shared = s.shared := rfl
@[simp] theorem State.post_refusedImages (s : State) (e : Instr) : (s.post e).refusedImages = s.refusedImages := rfl
@[simp] theorem State.post_sends (s : State) (e : Instr) : (s.post e).sends = s.sends := rfl
@[simp] theorem State.post_barSends (s : State) (e : Instr) : (s.post e).barSends = s.barSends := rfl
@[simp] theorem State.post_power (s : State) (e : Instr) : (s.post e).power = s.power := rfl
@[simp] theorem State.post_cycle (s : State) (e : Instr) : (s.post e).cycle = s.cycle := rfl
@[simp] theorem State.post_cur (s : State) (e : Instr) : (s.post e).cur = s.cur := rfl
@[simp] theorem State.post_resumes (s : State) (e : Instr) : (s.post e).resumes = s.resumes := rfl
@[simp] theorem State.post_inputs (s : State) (e : Instr) : (s.post e).inputs = s.inputs := rfl
@[simp] theorem State.post_evTurn (s : State) (e : Instr) : (s.post e).evTurn = s.evTurn := rfl
@[simp] theorem State.post_draws (s : State) (e : Instr) : (s.post e).draws = s.draws := rfl
@[simp] theorem State.post_nextId (s : State) (e : Instr) : (s.post e).nextId = s.nextId := rfl

/-! State.posts changes work only. -/

@[simp] theorem State.posts_slots (s : State) (es : List Instr) : (s.posts es).slots = s.slots := rfl
@[simp] theorem State.posts_sites (s : State) (es : List Instr) : (s.posts es).sites = s.sites := rfl
@[simp] theorem State.posts_banks (s : State) (es : List Instr) : (s.posts es).banks = s.banks := rfl
@[simp] theorem State.posts_mem (s : State) (es : List Instr) : (s.posts es).mem = s.mem := rfl
@[simp] theorem State.posts_poison (s : State) (es : List Instr) : (s.posts es).poison = s.poison := rfl
@[simp] theorem State.posts_wrong (s : State) (es : List Instr) : (s.posts es).wrong = s.wrong := rfl
@[simp] theorem State.posts_tags (s : State) (es : List Instr) : (s.posts es).tags = s.tags := rfl
@[simp] theorem State.posts_keys (s : State) (es : List Instr) : (s.posts es).keys = s.keys := rfl
@[simp] theorem State.posts_fuses (s : State) (es : List Instr) : (s.posts es).fuses = s.fuses := rfl
@[simp] theorem State.posts_dies (s : State) (es : List Instr) : (s.posts es).dies = s.dies := rfl
@[simp] theorem State.posts_mds (s : State) (es : List Instr) : (s.posts es).mds = s.mds := rfl
@[simp] theorem State.posts_iod (s : State) (es : List Instr) : (s.posts es).iod = s.iod := rfl
@[simp] theorem State.posts_turnstiles (s : State) (es : List Instr) : (s.posts es).turnstiles = s.turnstiles := rfl
@[simp] theorem State.posts_objects (s : State) (es : List Instr) : (s.posts es).objects = s.objects := rfl
@[simp] theorem State.posts_copies (s : State) (es : List Instr) : (s.posts es).copies = s.copies := rfl
@[simp] theorem State.posts_resv (s : State) (es : List Instr) : (s.posts es).resv = s.resv := rfl
@[simp] theorem State.posts_routers (s : State) (es : List Instr) : (s.posts es).routers = s.routers := rfl
@[simp] theorem State.posts_packets (s : State) (es : List Instr) : (s.posts es).packets = s.packets := rfl
@[simp] theorem State.posts_plans (s : State) (es : List Instr) : (s.posts es).plans = s.plans := rfl
@[simp] theorem State.posts_shared (s : State) (es : List Instr) : (s.posts es).shared = s.shared := rfl
@[simp] theorem State.posts_refusedImages (s : State) (es : List Instr) : (s.posts es).refusedImages = s.refusedImages := rfl
@[simp] theorem State.posts_sends (s : State) (es : List Instr) : (s.posts es).sends = s.sends := rfl
@[simp] theorem State.posts_barSends (s : State) (es : List Instr) : (s.posts es).barSends = s.barSends := rfl
@[simp] theorem State.posts_power (s : State) (es : List Instr) : (s.posts es).power = s.power := rfl
@[simp] theorem State.posts_cycle (s : State) (es : List Instr) : (s.posts es).cycle = s.cycle := rfl
@[simp] theorem State.posts_cur (s : State) (es : List Instr) : (s.posts es).cur = s.cur := rfl
@[simp] theorem State.posts_resumes (s : State) (es : List Instr) : (s.posts es).resumes = s.resumes := rfl
@[simp] theorem State.posts_inputs (s : State) (es : List Instr) : (s.posts es).inputs = s.inputs := rfl
@[simp] theorem State.posts_evTurn (s : State) (es : List Instr) : (s.posts es).evTurn = s.evTurn := rfl
@[simp] theorem State.posts_draws (s : State) (es : List Instr) : (s.posts es).draws = s.draws := rfl
@[simp] theorem State.posts_nextId (s : State) (es : List Instr) : (s.posts es).nextId = s.nextId := rfl

/-! State.bump changes nextId only. -/

@[simp] theorem State.bump_slots (s : State) : (s.bump).slots = s.slots := rfl
@[simp] theorem State.bump_sites (s : State) : (s.bump).sites = s.sites := rfl
@[simp] theorem State.bump_banks (s : State) : (s.bump).banks = s.banks := rfl
@[simp] theorem State.bump_mem (s : State) : (s.bump).mem = s.mem := rfl
@[simp] theorem State.bump_poison (s : State) : (s.bump).poison = s.poison := rfl
@[simp] theorem State.bump_wrong (s : State) : (s.bump).wrong = s.wrong := rfl
@[simp] theorem State.bump_tags (s : State) : (s.bump).tags = s.tags := rfl
@[simp] theorem State.bump_keys (s : State) : (s.bump).keys = s.keys := rfl
@[simp] theorem State.bump_fuses (s : State) : (s.bump).fuses = s.fuses := rfl
@[simp] theorem State.bump_dies (s : State) : (s.bump).dies = s.dies := rfl
@[simp] theorem State.bump_mds (s : State) : (s.bump).mds = s.mds := rfl
@[simp] theorem State.bump_iod (s : State) : (s.bump).iod = s.iod := rfl
@[simp] theorem State.bump_turnstiles (s : State) : (s.bump).turnstiles = s.turnstiles := rfl
@[simp] theorem State.bump_objects (s : State) : (s.bump).objects = s.objects := rfl
@[simp] theorem State.bump_copies (s : State) : (s.bump).copies = s.copies := rfl
@[simp] theorem State.bump_resv (s : State) : (s.bump).resv = s.resv := rfl
@[simp] theorem State.bump_routers (s : State) : (s.bump).routers = s.routers := rfl
@[simp] theorem State.bump_packets (s : State) : (s.bump).packets = s.packets := rfl
@[simp] theorem State.bump_plans (s : State) : (s.bump).plans = s.plans := rfl
@[simp] theorem State.bump_shared (s : State) : (s.bump).shared = s.shared := rfl
@[simp] theorem State.bump_refusedImages (s : State) : (s.bump).refusedImages = s.refusedImages := rfl
@[simp] theorem State.bump_sends (s : State) : (s.bump).sends = s.sends := rfl
@[simp] theorem State.bump_barSends (s : State) : (s.bump).barSends = s.barSends := rfl
@[simp] theorem State.bump_power (s : State) : (s.bump).power = s.power := rfl
@[simp] theorem State.bump_cycle (s : State) : (s.bump).cycle = s.cycle := rfl
@[simp] theorem State.bump_cur (s : State) : (s.bump).cur = s.cur := rfl
@[simp] theorem State.bump_resumes (s : State) : (s.bump).resumes = s.resumes := rfl
@[simp] theorem State.bump_inputs (s : State) : (s.bump).inputs = s.inputs := rfl
@[simp] theorem State.bump_work (s : State) : (s.bump).work = s.work := rfl
@[simp] theorem State.bump_evTurn (s : State) : (s.bump).evTurn = s.evTurn := rfl
@[simp] theorem State.bump_draws (s : State) : (s.bump).draws = s.draws := rfl

/-! State.drawn changes draws only. -/

@[simp] theorem State.drawn_slots (s : State) (n : Nat) : (s.drawn n).slots = s.slots := rfl
@[simp] theorem State.drawn_sites (s : State) (n : Nat) : (s.drawn n).sites = s.sites := rfl
@[simp] theorem State.drawn_banks (s : State) (n : Nat) : (s.drawn n).banks = s.banks := rfl
@[simp] theorem State.drawn_mem (s : State) (n : Nat) : (s.drawn n).mem = s.mem := rfl
@[simp] theorem State.drawn_poison (s : State) (n : Nat) : (s.drawn n).poison = s.poison := rfl
@[simp] theorem State.drawn_wrong (s : State) (n : Nat) : (s.drawn n).wrong = s.wrong := rfl
@[simp] theorem State.drawn_tags (s : State) (n : Nat) : (s.drawn n).tags = s.tags := rfl
@[simp] theorem State.drawn_keys (s : State) (n : Nat) : (s.drawn n).keys = s.keys := rfl
@[simp] theorem State.drawn_fuses (s : State) (n : Nat) : (s.drawn n).fuses = s.fuses := rfl
@[simp] theorem State.drawn_dies (s : State) (n : Nat) : (s.drawn n).dies = s.dies := rfl
@[simp] theorem State.drawn_mds (s : State) (n : Nat) : (s.drawn n).mds = s.mds := rfl
@[simp] theorem State.drawn_iod (s : State) (n : Nat) : (s.drawn n).iod = s.iod := rfl
@[simp] theorem State.drawn_turnstiles (s : State) (n : Nat) : (s.drawn n).turnstiles = s.turnstiles := rfl
@[simp] theorem State.drawn_objects (s : State) (n : Nat) : (s.drawn n).objects = s.objects := rfl
@[simp] theorem State.drawn_copies (s : State) (n : Nat) : (s.drawn n).copies = s.copies := rfl
@[simp] theorem State.drawn_resv (s : State) (n : Nat) : (s.drawn n).resv = s.resv := rfl
@[simp] theorem State.drawn_routers (s : State) (n : Nat) : (s.drawn n).routers = s.routers := rfl
@[simp] theorem State.drawn_packets (s : State) (n : Nat) : (s.drawn n).packets = s.packets := rfl
@[simp] theorem State.drawn_plans (s : State) (n : Nat) : (s.drawn n).plans = s.plans := rfl
@[simp] theorem State.drawn_shared (s : State) (n : Nat) : (s.drawn n).shared = s.shared := rfl
@[simp] theorem State.drawn_refusedImages (s : State) (n : Nat) : (s.drawn n).refusedImages = s.refusedImages := rfl
@[simp] theorem State.drawn_sends (s : State) (n : Nat) : (s.drawn n).sends = s.sends := rfl
@[simp] theorem State.drawn_barSends (s : State) (n : Nat) : (s.drawn n).barSends = s.barSends := rfl
@[simp] theorem State.drawn_power (s : State) (n : Nat) : (s.drawn n).power = s.power := rfl
@[simp] theorem State.drawn_cycle (s : State) (n : Nat) : (s.drawn n).cycle = s.cycle := rfl
@[simp] theorem State.drawn_cur (s : State) (n : Nat) : (s.drawn n).cur = s.cur := rfl
@[simp] theorem State.drawn_resumes (s : State) (n : Nat) : (s.drawn n).resumes = s.resumes := rfl
@[simp] theorem State.drawn_inputs (s : State) (n : Nat) : (s.drawn n).inputs = s.inputs := rfl
@[simp] theorem State.drawn_work (s : State) (n : Nat) : (s.drawn n).work = s.work := rfl
@[simp] theorem State.drawn_evTurn (s : State) (n : Nat) : (s.drawn n).evTurn = s.evTurn := rfl
@[simp] theorem State.drawn_nextId (s : State) (n : Nat) : (s.drawn n).nextId = s.nextId := rfl

/-! State.modRouter changes routers only. -/

@[simp] theorem State.modRouter_slots (s : State) (c : Nat) (f : Router → Router) : (s.modRouter c f).slots = s.slots := rfl
@[simp] theorem State.modRouter_sites (s : State) (c : Nat) (f : Router → Router) : (s.modRouter c f).sites = s.sites := rfl
@[simp] theorem State.modRouter_banks (s : State) (c : Nat) (f : Router → Router) : (s.modRouter c f).banks = s.banks := rfl
@[simp] theorem State.modRouter_mem (s : State) (c : Nat) (f : Router → Router) : (s.modRouter c f).mem = s.mem := rfl
@[simp] theorem State.modRouter_poison (s : State) (c : Nat) (f : Router → Router) : (s.modRouter c f).poison = s.poison := rfl
@[simp] theorem State.modRouter_wrong (s : State) (c : Nat) (f : Router → Router) : (s.modRouter c f).wrong = s.wrong := rfl
@[simp] theorem State.modRouter_tags (s : State) (c : Nat) (f : Router → Router) : (s.modRouter c f).tags = s.tags := rfl
@[simp] theorem State.modRouter_keys (s : State) (c : Nat) (f : Router → Router) : (s.modRouter c f).keys = s.keys := rfl
@[simp] theorem State.modRouter_fuses (s : State) (c : Nat) (f : Router → Router) : (s.modRouter c f).fuses = s.fuses := rfl
@[simp] theorem State.modRouter_dies (s : State) (c : Nat) (f : Router → Router) : (s.modRouter c f).dies = s.dies := rfl
@[simp] theorem State.modRouter_mds (s : State) (c : Nat) (f : Router → Router) : (s.modRouter c f).mds = s.mds := rfl
@[simp] theorem State.modRouter_iod (s : State) (c : Nat) (f : Router → Router) : (s.modRouter c f).iod = s.iod := rfl
@[simp] theorem State.modRouter_turnstiles (s : State) (c : Nat) (f : Router → Router) : (s.modRouter c f).turnstiles = s.turnstiles := rfl
@[simp] theorem State.modRouter_objects (s : State) (c : Nat) (f : Router → Router) : (s.modRouter c f).objects = s.objects := rfl
@[simp] theorem State.modRouter_copies (s : State) (c : Nat) (f : Router → Router) : (s.modRouter c f).copies = s.copies := rfl
@[simp] theorem State.modRouter_resv (s : State) (c : Nat) (f : Router → Router) : (s.modRouter c f).resv = s.resv := rfl
@[simp] theorem State.modRouter_packets (s : State) (c : Nat) (f : Router → Router) : (s.modRouter c f).packets = s.packets := rfl
@[simp] theorem State.modRouter_plans (s : State) (c : Nat) (f : Router → Router) : (s.modRouter c f).plans = s.plans := rfl
@[simp] theorem State.modRouter_shared (s : State) (c : Nat) (f : Router → Router) : (s.modRouter c f).shared = s.shared := rfl
@[simp] theorem State.modRouter_refusedImages (s : State) (c : Nat) (f : Router → Router) : (s.modRouter c f).refusedImages = s.refusedImages := rfl
@[simp] theorem State.modRouter_sends (s : State) (c : Nat) (f : Router → Router) : (s.modRouter c f).sends = s.sends := rfl
@[simp] theorem State.modRouter_barSends (s : State) (c : Nat) (f : Router → Router) : (s.modRouter c f).barSends = s.barSends := rfl
@[simp] theorem State.modRouter_power (s : State) (c : Nat) (f : Router → Router) : (s.modRouter c f).power = s.power := rfl
@[simp] theorem State.modRouter_cycle (s : State) (c : Nat) (f : Router → Router) : (s.modRouter c f).cycle = s.cycle := rfl
@[simp] theorem State.modRouter_cur (s : State) (c : Nat) (f : Router → Router) : (s.modRouter c f).cur = s.cur := rfl
@[simp] theorem State.modRouter_resumes (s : State) (c : Nat) (f : Router → Router) : (s.modRouter c f).resumes = s.resumes := rfl
@[simp] theorem State.modRouter_inputs (s : State) (c : Nat) (f : Router → Router) : (s.modRouter c f).inputs = s.inputs := rfl
@[simp] theorem State.modRouter_work (s : State) (c : Nat) (f : Router → Router) : (s.modRouter c f).work = s.work := rfl
@[simp] theorem State.modRouter_evTurn (s : State) (c : Nat) (f : Router → Router) : (s.modRouter c f).evTurn = s.evTurn := rfl
@[simp] theorem State.modRouter_draws (s : State) (c : Nat) (f : Router → Router) : (s.modRouter c f).draws = s.draws := rfl
@[simp] theorem State.modRouter_nextId (s : State) (c : Nat) (f : Router → Router) : (s.modRouter c f).nextId = s.nextId := rfl

/-! State.modPacket changes packets only. -/

@[simp] theorem State.modPacket_slots (s : State) (id : Nat) (f : NetPacket → NetPacket) : (s.modPacket id f).slots = s.slots := rfl
@[simp] theorem State.modPacket_sites (s : State) (id : Nat) (f : NetPacket → NetPacket) : (s.modPacket id f).sites = s.sites := rfl
@[simp] theorem State.modPacket_banks (s : State) (id : Nat) (f : NetPacket → NetPacket) : (s.modPacket id f).banks = s.banks := rfl
@[simp] theorem State.modPacket_mem (s : State) (id : Nat) (f : NetPacket → NetPacket) : (s.modPacket id f).mem = s.mem := rfl
@[simp] theorem State.modPacket_poison (s : State) (id : Nat) (f : NetPacket → NetPacket) : (s.modPacket id f).poison = s.poison := rfl
@[simp] theorem State.modPacket_wrong (s : State) (id : Nat) (f : NetPacket → NetPacket) : (s.modPacket id f).wrong = s.wrong := rfl
@[simp] theorem State.modPacket_tags (s : State) (id : Nat) (f : NetPacket → NetPacket) : (s.modPacket id f).tags = s.tags := rfl
@[simp] theorem State.modPacket_keys (s : State) (id : Nat) (f : NetPacket → NetPacket) : (s.modPacket id f).keys = s.keys := rfl
@[simp] theorem State.modPacket_fuses (s : State) (id : Nat) (f : NetPacket → NetPacket) : (s.modPacket id f).fuses = s.fuses := rfl
@[simp] theorem State.modPacket_dies (s : State) (id : Nat) (f : NetPacket → NetPacket) : (s.modPacket id f).dies = s.dies := rfl
@[simp] theorem State.modPacket_mds (s : State) (id : Nat) (f : NetPacket → NetPacket) : (s.modPacket id f).mds = s.mds := rfl
@[simp] theorem State.modPacket_iod (s : State) (id : Nat) (f : NetPacket → NetPacket) : (s.modPacket id f).iod = s.iod := rfl
@[simp] theorem State.modPacket_turnstiles (s : State) (id : Nat) (f : NetPacket → NetPacket) : (s.modPacket id f).turnstiles = s.turnstiles := rfl
@[simp] theorem State.modPacket_objects (s : State) (id : Nat) (f : NetPacket → NetPacket) : (s.modPacket id f).objects = s.objects := rfl
@[simp] theorem State.modPacket_copies (s : State) (id : Nat) (f : NetPacket → NetPacket) : (s.modPacket id f).copies = s.copies := rfl
@[simp] theorem State.modPacket_resv (s : State) (id : Nat) (f : NetPacket → NetPacket) : (s.modPacket id f).resv = s.resv := rfl
@[simp] theorem State.modPacket_routers (s : State) (id : Nat) (f : NetPacket → NetPacket) : (s.modPacket id f).routers = s.routers := rfl
@[simp] theorem State.modPacket_plans (s : State) (id : Nat) (f : NetPacket → NetPacket) : (s.modPacket id f).plans = s.plans := rfl
@[simp] theorem State.modPacket_shared (s : State) (id : Nat) (f : NetPacket → NetPacket) : (s.modPacket id f).shared = s.shared := rfl
@[simp] theorem State.modPacket_refusedImages (s : State) (id : Nat) (f : NetPacket → NetPacket) : (s.modPacket id f).refusedImages = s.refusedImages := rfl
@[simp] theorem State.modPacket_sends (s : State) (id : Nat) (f : NetPacket → NetPacket) : (s.modPacket id f).sends = s.sends := rfl
@[simp] theorem State.modPacket_barSends (s : State) (id : Nat) (f : NetPacket → NetPacket) : (s.modPacket id f).barSends = s.barSends := rfl
@[simp] theorem State.modPacket_power (s : State) (id : Nat) (f : NetPacket → NetPacket) : (s.modPacket id f).power = s.power := rfl
@[simp] theorem State.modPacket_cycle (s : State) (id : Nat) (f : NetPacket → NetPacket) : (s.modPacket id f).cycle = s.cycle := rfl
@[simp] theorem State.modPacket_cur (s : State) (id : Nat) (f : NetPacket → NetPacket) : (s.modPacket id f).cur = s.cur := rfl
@[simp] theorem State.modPacket_resumes (s : State) (id : Nat) (f : NetPacket → NetPacket) : (s.modPacket id f).resumes = s.resumes := rfl
@[simp] theorem State.modPacket_inputs (s : State) (id : Nat) (f : NetPacket → NetPacket) : (s.modPacket id f).inputs = s.inputs := rfl
@[simp] theorem State.modPacket_work (s : State) (id : Nat) (f : NetPacket → NetPacket) : (s.modPacket id f).work = s.work := rfl
@[simp] theorem State.modPacket_evTurn (s : State) (id : Nat) (f : NetPacket → NetPacket) : (s.modPacket id f).evTurn = s.evTurn := rfl
@[simp] theorem State.modPacket_draws (s : State) (id : Nat) (f : NetPacket → NetPacket) : (s.modPacket id f).draws = s.draws := rfl
@[simp] theorem State.modPacket_nextId (s : State) (id : Nat) (f : NetPacket → NetPacket) : (s.modPacket id f).nextId = s.nextId := rfl

/-! State.transit changes packets, routers, work, nextId only. -/

@[simp] theorem State.transit_slots (s : State) (src dst cls bytes : Nat) : (s.transit src dst cls bytes).slots = s.slots := rfl
@[simp] theorem State.transit_sites (s : State) (src dst cls bytes : Nat) : (s.transit src dst cls bytes).sites = s.sites := rfl
@[simp] theorem State.transit_banks (s : State) (src dst cls bytes : Nat) : (s.transit src dst cls bytes).banks = s.banks := rfl
@[simp] theorem State.transit_mem (s : State) (src dst cls bytes : Nat) : (s.transit src dst cls bytes).mem = s.mem := rfl
@[simp] theorem State.transit_poison (s : State) (src dst cls bytes : Nat) : (s.transit src dst cls bytes).poison = s.poison := rfl
@[simp] theorem State.transit_wrong (s : State) (src dst cls bytes : Nat) : (s.transit src dst cls bytes).wrong = s.wrong := rfl
@[simp] theorem State.transit_tags (s : State) (src dst cls bytes : Nat) : (s.transit src dst cls bytes).tags = s.tags := rfl
@[simp] theorem State.transit_keys (s : State) (src dst cls bytes : Nat) : (s.transit src dst cls bytes).keys = s.keys := rfl
@[simp] theorem State.transit_fuses (s : State) (src dst cls bytes : Nat) : (s.transit src dst cls bytes).fuses = s.fuses := rfl
@[simp] theorem State.transit_dies (s : State) (src dst cls bytes : Nat) : (s.transit src dst cls bytes).dies = s.dies := rfl
@[simp] theorem State.transit_mds (s : State) (src dst cls bytes : Nat) : (s.transit src dst cls bytes).mds = s.mds := rfl
@[simp] theorem State.transit_iod (s : State) (src dst cls bytes : Nat) : (s.transit src dst cls bytes).iod = s.iod := rfl
@[simp] theorem State.transit_turnstiles (s : State) (src dst cls bytes : Nat) : (s.transit src dst cls bytes).turnstiles = s.turnstiles := rfl
@[simp] theorem State.transit_objects (s : State) (src dst cls bytes : Nat) : (s.transit src dst cls bytes).objects = s.objects := rfl
@[simp] theorem State.transit_copies (s : State) (src dst cls bytes : Nat) : (s.transit src dst cls bytes).copies = s.copies := rfl
@[simp] theorem State.transit_resv (s : State) (src dst cls bytes : Nat) : (s.transit src dst cls bytes).resv = s.resv := rfl
@[simp] theorem State.transit_plans (s : State) (src dst cls bytes : Nat) : (s.transit src dst cls bytes).plans = s.plans := rfl
@[simp] theorem State.transit_shared (s : State) (src dst cls bytes : Nat) : (s.transit src dst cls bytes).shared = s.shared := rfl
@[simp] theorem State.transit_refusedImages (s : State) (src dst cls bytes : Nat) : (s.transit src dst cls bytes).refusedImages = s.refusedImages := rfl
@[simp] theorem State.transit_sends (s : State) (src dst cls bytes : Nat) : (s.transit src dst cls bytes).sends = s.sends := rfl
@[simp] theorem State.transit_barSends (s : State) (src dst cls bytes : Nat) : (s.transit src dst cls bytes).barSends = s.barSends := rfl
@[simp] theorem State.transit_power (s : State) (src dst cls bytes : Nat) : (s.transit src dst cls bytes).power = s.power := rfl
@[simp] theorem State.transit_cycle (s : State) (src dst cls bytes : Nat) : (s.transit src dst cls bytes).cycle = s.cycle := rfl
@[simp] theorem State.transit_cur (s : State) (src dst cls bytes : Nat) : (s.transit src dst cls bytes).cur = s.cur := rfl
@[simp] theorem State.transit_resumes (s : State) (src dst cls bytes : Nat) : (s.transit src dst cls bytes).resumes = s.resumes := rfl
@[simp] theorem State.transit_inputs (s : State) (src dst cls bytes : Nat) : (s.transit src dst cls bytes).inputs = s.inputs := rfl
@[simp] theorem State.transit_evTurn (s : State) (src dst cls bytes : Nat) : (s.transit src dst cls bytes).evTurn = s.evTurn := rfl
@[simp] theorem State.transit_draws (s : State) (src dst cls bytes : Nat) : (s.transit src dst cls bytes).draws = s.draws := rfl

/-! State.exchange changes packets, routers, work, nextId only. -/

@[simp] theorem State.exchange_slots (s : State) (src dst cls req rep : Nat) : (s.exchange src dst cls req rep).slots = s.slots := rfl
@[simp] theorem State.exchange_sites (s : State) (src dst cls req rep : Nat) : (s.exchange src dst cls req rep).sites = s.sites := rfl
@[simp] theorem State.exchange_banks (s : State) (src dst cls req rep : Nat) : (s.exchange src dst cls req rep).banks = s.banks := rfl
@[simp] theorem State.exchange_mem (s : State) (src dst cls req rep : Nat) : (s.exchange src dst cls req rep).mem = s.mem := rfl
@[simp] theorem State.exchange_poison (s : State) (src dst cls req rep : Nat) : (s.exchange src dst cls req rep).poison = s.poison := rfl
@[simp] theorem State.exchange_wrong (s : State) (src dst cls req rep : Nat) : (s.exchange src dst cls req rep).wrong = s.wrong := rfl
@[simp] theorem State.exchange_tags (s : State) (src dst cls req rep : Nat) : (s.exchange src dst cls req rep).tags = s.tags := rfl
@[simp] theorem State.exchange_keys (s : State) (src dst cls req rep : Nat) : (s.exchange src dst cls req rep).keys = s.keys := rfl
@[simp] theorem State.exchange_fuses (s : State) (src dst cls req rep : Nat) : (s.exchange src dst cls req rep).fuses = s.fuses := rfl
@[simp] theorem State.exchange_dies (s : State) (src dst cls req rep : Nat) : (s.exchange src dst cls req rep).dies = s.dies := rfl
@[simp] theorem State.exchange_mds (s : State) (src dst cls req rep : Nat) : (s.exchange src dst cls req rep).mds = s.mds := rfl
@[simp] theorem State.exchange_iod (s : State) (src dst cls req rep : Nat) : (s.exchange src dst cls req rep).iod = s.iod := rfl
@[simp] theorem State.exchange_turnstiles (s : State) (src dst cls req rep : Nat) : (s.exchange src dst cls req rep).turnstiles = s.turnstiles := rfl
@[simp] theorem State.exchange_objects (s : State) (src dst cls req rep : Nat) : (s.exchange src dst cls req rep).objects = s.objects := rfl
@[simp] theorem State.exchange_copies (s : State) (src dst cls req rep : Nat) : (s.exchange src dst cls req rep).copies = s.copies := rfl
@[simp] theorem State.exchange_resv (s : State) (src dst cls req rep : Nat) : (s.exchange src dst cls req rep).resv = s.resv := rfl
@[simp] theorem State.exchange_plans (s : State) (src dst cls req rep : Nat) : (s.exchange src dst cls req rep).plans = s.plans := rfl
@[simp] theorem State.exchange_shared (s : State) (src dst cls req rep : Nat) : (s.exchange src dst cls req rep).shared = s.shared := rfl
@[simp] theorem State.exchange_refusedImages (s : State) (src dst cls req rep : Nat) : (s.exchange src dst cls req rep).refusedImages = s.refusedImages := rfl
@[simp] theorem State.exchange_sends (s : State) (src dst cls req rep : Nat) : (s.exchange src dst cls req rep).sends = s.sends := rfl
@[simp] theorem State.exchange_barSends (s : State) (src dst cls req rep : Nat) : (s.exchange src dst cls req rep).barSends = s.barSends := rfl
@[simp] theorem State.exchange_power (s : State) (src dst cls req rep : Nat) : (s.exchange src dst cls req rep).power = s.power := rfl
@[simp] theorem State.exchange_cycle (s : State) (src dst cls req rep : Nat) : (s.exchange src dst cls req rep).cycle = s.cycle := rfl
@[simp] theorem State.exchange_cur (s : State) (src dst cls req rep : Nat) : (s.exchange src dst cls req rep).cur = s.cur := rfl
@[simp] theorem State.exchange_resumes (s : State) (src dst cls req rep : Nat) : (s.exchange src dst cls req rep).resumes = s.resumes := rfl
@[simp] theorem State.exchange_inputs (s : State) (src dst cls req rep : Nat) : (s.exchange src dst cls req rep).inputs = s.inputs := rfl
@[simp] theorem State.exchange_evTurn (s : State) (src dst cls req rep : Nat) : (s.exchange src dst cls req rep).evTurn = s.evTurn := rfl
@[simp] theorem State.exchange_draws (s : State) (src dst cls req rep : Nat) : (s.exchange src dst cls req rep).draws = s.draws := rfl

/-! State.setByte changes mem only. -/

@[simp] theorem State.setByte_slots (s : State) (k : Nat) (b : Byte) : (s.setByte k b).slots = s.slots := rfl
@[simp] theorem State.setByte_sites (s : State) (k : Nat) (b : Byte) : (s.setByte k b).sites = s.sites := rfl
@[simp] theorem State.setByte_banks (s : State) (k : Nat) (b : Byte) : (s.setByte k b).banks = s.banks := rfl
@[simp] theorem State.setByte_poison (s : State) (k : Nat) (b : Byte) : (s.setByte k b).poison = s.poison := rfl
@[simp] theorem State.setByte_wrong (s : State) (k : Nat) (b : Byte) : (s.setByte k b).wrong = s.wrong := rfl
@[simp] theorem State.setByte_tags (s : State) (k : Nat) (b : Byte) : (s.setByte k b).tags = s.tags := rfl
@[simp] theorem State.setByte_keys (s : State) (k : Nat) (b : Byte) : (s.setByte k b).keys = s.keys := rfl
@[simp] theorem State.setByte_fuses (s : State) (k : Nat) (b : Byte) : (s.setByte k b).fuses = s.fuses := rfl
@[simp] theorem State.setByte_dies (s : State) (k : Nat) (b : Byte) : (s.setByte k b).dies = s.dies := rfl
@[simp] theorem State.setByte_mds (s : State) (k : Nat) (b : Byte) : (s.setByte k b).mds = s.mds := rfl
@[simp] theorem State.setByte_iod (s : State) (k : Nat) (b : Byte) : (s.setByte k b).iod = s.iod := rfl
@[simp] theorem State.setByte_turnstiles (s : State) (k : Nat) (b : Byte) : (s.setByte k b).turnstiles = s.turnstiles := rfl
@[simp] theorem State.setByte_objects (s : State) (k : Nat) (b : Byte) : (s.setByte k b).objects = s.objects := rfl
@[simp] theorem State.setByte_copies (s : State) (k : Nat) (b : Byte) : (s.setByte k b).copies = s.copies := rfl
@[simp] theorem State.setByte_resv (s : State) (k : Nat) (b : Byte) : (s.setByte k b).resv = s.resv := rfl
@[simp] theorem State.setByte_routers (s : State) (k : Nat) (b : Byte) : (s.setByte k b).routers = s.routers := rfl
@[simp] theorem State.setByte_packets (s : State) (k : Nat) (b : Byte) : (s.setByte k b).packets = s.packets := rfl
@[simp] theorem State.setByte_plans (s : State) (k : Nat) (b : Byte) : (s.setByte k b).plans = s.plans := rfl
@[simp] theorem State.setByte_shared (s : State) (k : Nat) (b : Byte) : (s.setByte k b).shared = s.shared := rfl
@[simp] theorem State.setByte_refusedImages (s : State) (k : Nat) (b : Byte) : (s.setByte k b).refusedImages = s.refusedImages := rfl
@[simp] theorem State.setByte_sends (s : State) (k : Nat) (b : Byte) : (s.setByte k b).sends = s.sends := rfl
@[simp] theorem State.setByte_barSends (s : State) (k : Nat) (b : Byte) : (s.setByte k b).barSends = s.barSends := rfl
@[simp] theorem State.setByte_power (s : State) (k : Nat) (b : Byte) : (s.setByte k b).power = s.power := rfl
@[simp] theorem State.setByte_cycle (s : State) (k : Nat) (b : Byte) : (s.setByte k b).cycle = s.cycle := rfl
@[simp] theorem State.setByte_cur (s : State) (k : Nat) (b : Byte) : (s.setByte k b).cur = s.cur := rfl
@[simp] theorem State.setByte_resumes (s : State) (k : Nat) (b : Byte) : (s.setByte k b).resumes = s.resumes := rfl
@[simp] theorem State.setByte_inputs (s : State) (k : Nat) (b : Byte) : (s.setByte k b).inputs = s.inputs := rfl
@[simp] theorem State.setByte_work (s : State) (k : Nat) (b : Byte) : (s.setByte k b).work = s.work := rfl
@[simp] theorem State.setByte_evTurn (s : State) (k : Nat) (b : Byte) : (s.setByte k b).evTurn = s.evTurn := rfl
@[simp] theorem State.setByte_draws (s : State) (k : Nat) (b : Byte) : (s.setByte k b).draws = s.draws := rfl
@[simp] theorem State.setByte_nextId (s : State) (k : Nat) (b : Byte) : (s.setByte k b).nextId = s.nextId := rfl

/-! State.setBytes changes mem only. -/

@[simp] theorem State.setBytes_slots (s : State) (k : Nat) (bs : List Byte) : (s.setBytes k bs).slots = s.slots := rfl
@[simp] theorem State.setBytes_sites (s : State) (k : Nat) (bs : List Byte) : (s.setBytes k bs).sites = s.sites := rfl
@[simp] theorem State.setBytes_banks (s : State) (k : Nat) (bs : List Byte) : (s.setBytes k bs).banks = s.banks := rfl
@[simp] theorem State.setBytes_poison (s : State) (k : Nat) (bs : List Byte) : (s.setBytes k bs).poison = s.poison := rfl
@[simp] theorem State.setBytes_wrong (s : State) (k : Nat) (bs : List Byte) : (s.setBytes k bs).wrong = s.wrong := rfl
@[simp] theorem State.setBytes_tags (s : State) (k : Nat) (bs : List Byte) : (s.setBytes k bs).tags = s.tags := rfl
@[simp] theorem State.setBytes_keys (s : State) (k : Nat) (bs : List Byte) : (s.setBytes k bs).keys = s.keys := rfl
@[simp] theorem State.setBytes_fuses (s : State) (k : Nat) (bs : List Byte) : (s.setBytes k bs).fuses = s.fuses := rfl
@[simp] theorem State.setBytes_dies (s : State) (k : Nat) (bs : List Byte) : (s.setBytes k bs).dies = s.dies := rfl
@[simp] theorem State.setBytes_mds (s : State) (k : Nat) (bs : List Byte) : (s.setBytes k bs).mds = s.mds := rfl
@[simp] theorem State.setBytes_iod (s : State) (k : Nat) (bs : List Byte) : (s.setBytes k bs).iod = s.iod := rfl
@[simp] theorem State.setBytes_turnstiles (s : State) (k : Nat) (bs : List Byte) : (s.setBytes k bs).turnstiles = s.turnstiles := rfl
@[simp] theorem State.setBytes_objects (s : State) (k : Nat) (bs : List Byte) : (s.setBytes k bs).objects = s.objects := rfl
@[simp] theorem State.setBytes_copies (s : State) (k : Nat) (bs : List Byte) : (s.setBytes k bs).copies = s.copies := rfl
@[simp] theorem State.setBytes_resv (s : State) (k : Nat) (bs : List Byte) : (s.setBytes k bs).resv = s.resv := rfl
@[simp] theorem State.setBytes_routers (s : State) (k : Nat) (bs : List Byte) : (s.setBytes k bs).routers = s.routers := rfl
@[simp] theorem State.setBytes_packets (s : State) (k : Nat) (bs : List Byte) : (s.setBytes k bs).packets = s.packets := rfl
@[simp] theorem State.setBytes_plans (s : State) (k : Nat) (bs : List Byte) : (s.setBytes k bs).plans = s.plans := rfl
@[simp] theorem State.setBytes_shared (s : State) (k : Nat) (bs : List Byte) : (s.setBytes k bs).shared = s.shared := rfl
@[simp] theorem State.setBytes_refusedImages (s : State) (k : Nat) (bs : List Byte) : (s.setBytes k bs).refusedImages = s.refusedImages := rfl
@[simp] theorem State.setBytes_sends (s : State) (k : Nat) (bs : List Byte) : (s.setBytes k bs).sends = s.sends := rfl
@[simp] theorem State.setBytes_barSends (s : State) (k : Nat) (bs : List Byte) : (s.setBytes k bs).barSends = s.barSends := rfl
@[simp] theorem State.setBytes_power (s : State) (k : Nat) (bs : List Byte) : (s.setBytes k bs).power = s.power := rfl
@[simp] theorem State.setBytes_cycle (s : State) (k : Nat) (bs : List Byte) : (s.setBytes k bs).cycle = s.cycle := rfl
@[simp] theorem State.setBytes_cur (s : State) (k : Nat) (bs : List Byte) : (s.setBytes k bs).cur = s.cur := rfl
@[simp] theorem State.setBytes_resumes (s : State) (k : Nat) (bs : List Byte) : (s.setBytes k bs).resumes = s.resumes := rfl
@[simp] theorem State.setBytes_inputs (s : State) (k : Nat) (bs : List Byte) : (s.setBytes k bs).inputs = s.inputs := rfl
@[simp] theorem State.setBytes_work (s : State) (k : Nat) (bs : List Byte) : (s.setBytes k bs).work = s.work := rfl
@[simp] theorem State.setBytes_evTurn (s : State) (k : Nat) (bs : List Byte) : (s.setBytes k bs).evTurn = s.evTurn := rfl
@[simp] theorem State.setBytes_draws (s : State) (k : Nat) (bs : List Byte) : (s.setBytes k bs).draws = s.draws := rfl
@[simp] theorem State.setBytes_nextId (s : State) (k : Nat) (bs : List Byte) : (s.setBytes k bs).nextId = s.nextId := rfl

/-! State.setPoison changes poison only. -/

@[simp] theorem State.setPoison_slots (s : State) (k : Nat) (b : Bool) : (s.setPoison k b).slots = s.slots := rfl
@[simp] theorem State.setPoison_sites (s : State) (k : Nat) (b : Bool) : (s.setPoison k b).sites = s.sites := rfl
@[simp] theorem State.setPoison_banks (s : State) (k : Nat) (b : Bool) : (s.setPoison k b).banks = s.banks := rfl
@[simp] theorem State.setPoison_mem (s : State) (k : Nat) (b : Bool) : (s.setPoison k b).mem = s.mem := rfl
@[simp] theorem State.setPoison_wrong (s : State) (k : Nat) (b : Bool) : (s.setPoison k b).wrong = s.wrong := rfl
@[simp] theorem State.setPoison_tags (s : State) (k : Nat) (b : Bool) : (s.setPoison k b).tags = s.tags := rfl
@[simp] theorem State.setPoison_keys (s : State) (k : Nat) (b : Bool) : (s.setPoison k b).keys = s.keys := rfl
@[simp] theorem State.setPoison_fuses (s : State) (k : Nat) (b : Bool) : (s.setPoison k b).fuses = s.fuses := rfl
@[simp] theorem State.setPoison_dies (s : State) (k : Nat) (b : Bool) : (s.setPoison k b).dies = s.dies := rfl
@[simp] theorem State.setPoison_mds (s : State) (k : Nat) (b : Bool) : (s.setPoison k b).mds = s.mds := rfl
@[simp] theorem State.setPoison_iod (s : State) (k : Nat) (b : Bool) : (s.setPoison k b).iod = s.iod := rfl
@[simp] theorem State.setPoison_turnstiles (s : State) (k : Nat) (b : Bool) : (s.setPoison k b).turnstiles = s.turnstiles := rfl
@[simp] theorem State.setPoison_objects (s : State) (k : Nat) (b : Bool) : (s.setPoison k b).objects = s.objects := rfl
@[simp] theorem State.setPoison_copies (s : State) (k : Nat) (b : Bool) : (s.setPoison k b).copies = s.copies := rfl
@[simp] theorem State.setPoison_resv (s : State) (k : Nat) (b : Bool) : (s.setPoison k b).resv = s.resv := rfl
@[simp] theorem State.setPoison_routers (s : State) (k : Nat) (b : Bool) : (s.setPoison k b).routers = s.routers := rfl
@[simp] theorem State.setPoison_packets (s : State) (k : Nat) (b : Bool) : (s.setPoison k b).packets = s.packets := rfl
@[simp] theorem State.setPoison_plans (s : State) (k : Nat) (b : Bool) : (s.setPoison k b).plans = s.plans := rfl
@[simp] theorem State.setPoison_shared (s : State) (k : Nat) (b : Bool) : (s.setPoison k b).shared = s.shared := rfl
@[simp] theorem State.setPoison_refusedImages (s : State) (k : Nat) (b : Bool) : (s.setPoison k b).refusedImages = s.refusedImages := rfl
@[simp] theorem State.setPoison_sends (s : State) (k : Nat) (b : Bool) : (s.setPoison k b).sends = s.sends := rfl
@[simp] theorem State.setPoison_barSends (s : State) (k : Nat) (b : Bool) : (s.setPoison k b).barSends = s.barSends := rfl
@[simp] theorem State.setPoison_power (s : State) (k : Nat) (b : Bool) : (s.setPoison k b).power = s.power := rfl
@[simp] theorem State.setPoison_cycle (s : State) (k : Nat) (b : Bool) : (s.setPoison k b).cycle = s.cycle := rfl
@[simp] theorem State.setPoison_cur (s : State) (k : Nat) (b : Bool) : (s.setPoison k b).cur = s.cur := rfl
@[simp] theorem State.setPoison_resumes (s : State) (k : Nat) (b : Bool) : (s.setPoison k b).resumes = s.resumes := rfl
@[simp] theorem State.setPoison_inputs (s : State) (k : Nat) (b : Bool) : (s.setPoison k b).inputs = s.inputs := rfl
@[simp] theorem State.setPoison_work (s : State) (k : Nat) (b : Bool) : (s.setPoison k b).work = s.work := rfl
@[simp] theorem State.setPoison_evTurn (s : State) (k : Nat) (b : Bool) : (s.setPoison k b).evTurn = s.evTurn := rfl
@[simp] theorem State.setPoison_draws (s : State) (k : Nat) (b : Bool) : (s.setPoison k b).draws = s.draws := rfl
@[simp] theorem State.setPoison_nextId (s : State) (k : Nat) (b : Bool) : (s.setPoison k b).nextId = s.nextId := rfl

/-! Slot.setG changes g only. -/

@[simp] theorem Slot.setG_status (x : Slot) (n : R4) (v : Dword) : (x.setG n v).status = x.status := by unfold Slot.setG; split <;> rfl
@[simp] theorem Slot.setG_since (x : Slot) (n : R4) (v : Dword) : (x.setG n v).since = x.since := by unfold Slot.setG; split <;> rfl
@[simp] theorem Slot.setG_stage (x : Slot) (n : R4) (v : Dword) : (x.setG n v).stage = x.stage := by unfold Slot.setG; split <;> rfl
@[simp] theorem Slot.setG_pc (x : Slot) (n : R4) (v : Dword) : (x.setG n v).pc = x.pc := by unfold Slot.setG; split <;> rfl
@[simp] theorem Slot.setG_pre (x : Slot) (n : R4) (v : Dword) : (x.setG n v).pre = x.pre := by unfold Slot.setG; split <;> rfl
@[simp] theorem Slot.setG_v (x : Slot) (n : R4) (v : Dword) : (x.setG n v).v = x.v := by unfold Slot.setG; split <;> rfl
@[simp] theorem Slot.setG_m (x : Slot) (n : R4) (v : Dword) : (x.setG n v).m = x.m := by unfold Slot.setG; split <;> rfl
@[simp] theorem Slot.setG_q (x : Slot) (n : R4) (v : Dword) : (x.setG n v).q = x.q := by unfold Slot.setG; split <;> rfl
@[simp] theorem Slot.setG_segs (x : Slot) (n : R4) (v : Dword) : (x.setG n v).segs = x.segs := by unfold Slot.setG; split <;> rfl
@[simp] theorem Slot.setG_frames (x : Slot) (n : R4) (v : Dword) : (x.setG n v).frames = x.frames := by unfold Slot.setG; split <;> rfl
@[simp] theorem Slot.setG_spilled (x : Slot) (n : R4) (v : Dword) : (x.setG n v).spilled = x.spilled := by unfold Slot.setG; split <;> rfl
@[simp] theorem Slot.setG_depth (x : Slot) (n : R4) (v : Dword) : (x.setG n v).depth = x.depth := by unfold Slot.setG; split <;> rfl
@[simp] theorem Slot.setG_streamed (x : Slot) (n : R4) (v : Dword) : (x.setG n v).streamed = x.streamed := by unfold Slot.setG; split <;> rfl
@[simp] theorem Slot.setG_spawned (x : Slot) (n : R4) (v : Dword) : (x.setG n v).spawned = x.spawned := by unfold Slot.setG; split <;> rfl
@[simp] theorem Slot.setG_owner (x : Slot) (n : R4) (v : Dword) : (x.setG n v).owner = x.owner := by unfold Slot.setG; split <;> rfl
@[simp] theorem Slot.setG_rect (x : Slot) (n : R4) (v : Dword) : (x.setG n v).rect = x.rect := by unfold Slot.setG; split <;> rfl
@[simp] theorem Slot.setG_acct (x : Slot) (n : R4) (v : Dword) : (x.setG n v).acct = x.acct := by unfold Slot.setG; split <;> rfl
@[simp] theorem Slot.setG_fmta (x : Slot) (n : R4) (v : Dword) : (x.setG n v).fmta = x.fmta := by unfold Slot.setG; split <;> rfl
@[simp] theorem Slot.setG_fmtb (x : Slot) (n : R4) (v : Dword) : (x.setG n v).fmtb = x.fmtb := by unfold Slot.setG; split <;> rfl
@[simp] theorem Slot.setG_fmtc (x : Slot) (n : R4) (v : Dword) : (x.setG n v).fmtc = x.fmtc := by unfold Slot.setG; split <;> rfl
@[simp] theorem Slot.setG_scla (x : Slot) (n : R4) (v : Dword) : (x.setG n v).scla = x.scla := by unfold Slot.setG; split <;> rfl
@[simp] theorem Slot.setG_sclb (x : Slot) (n : R4) (v : Dword) : (x.setG n v).sclb = x.sclb := by unfold Slot.setG; split <;> rfl
@[simp] theorem Slot.setG_srg (x : Slot) (n : R4) (v : Dword) : (x.setG n v).srg = x.srg := by unfold Slot.setG; split <;> rfl
@[simp] theorem Slot.setG_prom (x : Slot) (n : R4) (v : Dword) : (x.setG n v).prom = x.prom := by unfold Slot.setG; split <;> rfl
@[simp] theorem Slot.setG_rnd (x : Slot) (n : R4) (v : Dword) : (x.setG n v).rnd = x.rnd := by unfold Slot.setG; split <;> rfl
@[simp] theorem Slot.setG_flags (x : Slot) (n : R4) (v : Dword) : (x.setG n v).flags = x.flags := by unfold Slot.setG; split <;> rfl
@[simp] theorem Slot.setG_hstat (x : Slot) (n : R4) (v : Dword) : (x.setG n v).hstat = x.hstat := by unfold Slot.setG; split <;> rfl
@[simp] theorem Slot.setG_fprm (x : Slot) (n : R4) (v : Dword) : (x.setG n v).fprm = x.fprm := by unfold Slot.setG; split <;> rfl
@[simp] theorem Slot.setG_tvec (x : Slot) (n : R4) (v : Dword) : (x.setG n v).tvec = x.tvec := by unfold Slot.setG; split <;> rfl
@[simp] theorem Slot.setG_tcause (x : Slot) (n : R4) (v : Dword) : (x.setG n v).tcause = x.tcause := by unfold Slot.setG; split <;> rfl
@[simp] theorem Slot.setG_taddr (x : Slot) (n : R4) (v : Dword) : (x.setG n v).taddr = x.taddr := by unfold Slot.setG; split <;> rfl
@[simp] theorem Slot.setG_tepc (x : Slot) (n : R4) (v : Dword) : (x.setG n v).tepc = x.tepc := by unfold Slot.setG; split <;> rfl
@[simp] theorem Slot.setG_tinfo (x : Slot) (n : R4) (v : Dword) : (x.setG n v).tinfo = x.tinfo := by unfold Slot.setG; split <;> rfl
@[simp] theorem Slot.setG_ten (x : Slot) (n : R4) (v : Dword) : (x.setG n v).ten = x.ten := by unfold Slot.setG; split <;> rfl
@[simp] theorem Slot.setG_wsp (x : Slot) (n : R4) (v : Dword) : (x.setG n v).wsp = x.wsp := by unfold Slot.setG; split <;> rfl
@[simp] theorem Slot.setG_wlim (x : Slot) (n : R4) (v : Dword) : (x.setG n v).wlim = x.wlim := by unfold Slot.setG; split <;> rfl
@[simp] theorem Slot.setG_cfs (x : Slot) (n : R4) (v : Dword) : (x.setG n v).cfs = x.cfs := by unfold Slot.setG; split <;> rfl
@[simp] theorem Slot.setG_cfb (x : Slot) (n : R4) (v : Dword) : (x.setG n v).cfb = x.cfb := by unfold Slot.setG; split <;> rfl
@[simp] theorem Slot.setG_tcfs (x : Slot) (n : R4) (v : Dword) : (x.setG n v).tcfs = x.tcfs := by unfold Slot.setG; split <;> rfl
@[simp] theorem Slot.setG_tcfb (x : Slot) (n : R4) (v : Dword) : (x.setG n v).tcfb = x.tcfb := by unfold Slot.setG; split <;> rfl
@[simp] theorem Slot.setG_rpt (x : Slot) (n : R4) (v : Dword) : (x.setG n v).rpt = x.rpt := by unfold Slot.setG; split <;> rfl
@[simp] theorem Slot.setG_far (x : Slot) (n : R4) (v : Dword) : (x.setG n v).far = x.far := by unfold Slot.setG; split <;> rfl
@[simp] theorem Slot.setG_relaxed (x : Slot) (n : R4) (v : Dword) : (x.setG n v).relaxed = x.relaxed := by unfold Slot.setG; split <;> rfl
@[simp] theorem Slot.setG_faults (x : Slot) (n : R4) (v : Dword) : (x.setG n v).faults = x.faults := by unfold Slot.setG; split <;> rfl
@[simp] theorem Slot.setG_resv (x : Slot) (n : R4) (v : Dword) : (x.setG n v).resv = x.resv := by unfold Slot.setG; split <;> rfl
@[simp] theorem Slot.setG_bars (x : Slot) (n : R4) (v : Dword) : (x.setG n v).bars = x.bars := by unfold Slot.setG; split <;> rfl
@[simp] theorem Slot.setG_calls (x : Slot) (n : R4) (v : Dword) : (x.setG n v).calls = x.calls := by unfold Slot.setG; split <;> rfl
@[simp] theorem Slot.setG_lastTime (x : Slot) (n : R4) (v : Dword) : (x.setG n v).lastTime = x.lastTime := by unfold Slot.setG; split <;> rfl
@[simp] theorem Slot.setG_latch (x : Slot) (n : R4) (v : Dword) : (x.setG n v).latch = x.latch := by unfold Slot.setG; split <;> rfl
@[simp] theorem Slot.setG_coming (x : Slot) (n : R4) (v : Dword) : (x.setG n v).coming = x.coming := by unfold Slot.setG; split <;> rfl
@[simp] theorem Slot.setG_buf (x : Slot) (n : R4) (v : Dword) : (x.setG n v).buf = x.buf := by unfold Slot.setG; split <;> rfl
@[simp] theorem Slot.setG_out (x : Slot) (n : R4) (v : Dword) : (x.setG n v).out = x.out := by unfold Slot.setG; split <;> rfl
@[simp] theorem Slot.setG_hold (x : Slot) (n : R4) (v : Dword) : (x.setG n v).hold = x.hold := by unfold Slot.setG; split <;> rfl
@[simp] theorem Slot.setG_held (x : Slot) (n : R4) (v : Dword) : (x.setG n v).held = x.held := by unfold Slot.setG; split <;> rfl
@[simp] theorem Slot.setG_method (x : Slot) (n : R4) (v : Dword) : (x.setG n v).method = x.method := by unfold Slot.setG; split <;> rfl

/-! Slot.setM changes m only. -/

@[simp] theorem Slot.setM_status (x : Slot) (n : BitVec 3) (v : Dword) : (x.setM n v).status = x.status := by unfold Slot.setM; split <;> rfl
@[simp] theorem Slot.setM_since (x : Slot) (n : BitVec 3) (v : Dword) : (x.setM n v).since = x.since := by unfold Slot.setM; split <;> rfl
@[simp] theorem Slot.setM_stage (x : Slot) (n : BitVec 3) (v : Dword) : (x.setM n v).stage = x.stage := by unfold Slot.setM; split <;> rfl
@[simp] theorem Slot.setM_pc (x : Slot) (n : BitVec 3) (v : Dword) : (x.setM n v).pc = x.pc := by unfold Slot.setM; split <;> rfl
@[simp] theorem Slot.setM_pre (x : Slot) (n : BitVec 3) (v : Dword) : (x.setM n v).pre = x.pre := by unfold Slot.setM; split <;> rfl
@[simp] theorem Slot.setM_g (x : Slot) (n : BitVec 3) (v : Dword) : (x.setM n v).g = x.g := by unfold Slot.setM; split <;> rfl
@[simp] theorem Slot.setM_v (x : Slot) (n : BitVec 3) (v : Dword) : (x.setM n v).v = x.v := by unfold Slot.setM; split <;> rfl
@[simp] theorem Slot.setM_q (x : Slot) (n : BitVec 3) (v : Dword) : (x.setM n v).q = x.q := by unfold Slot.setM; split <;> rfl
@[simp] theorem Slot.setM_segs (x : Slot) (n : BitVec 3) (v : Dword) : (x.setM n v).segs = x.segs := by unfold Slot.setM; split <;> rfl
@[simp] theorem Slot.setM_frames (x : Slot) (n : BitVec 3) (v : Dword) : (x.setM n v).frames = x.frames := by unfold Slot.setM; split <;> rfl
@[simp] theorem Slot.setM_spilled (x : Slot) (n : BitVec 3) (v : Dword) : (x.setM n v).spilled = x.spilled := by unfold Slot.setM; split <;> rfl
@[simp] theorem Slot.setM_depth (x : Slot) (n : BitVec 3) (v : Dword) : (x.setM n v).depth = x.depth := by unfold Slot.setM; split <;> rfl
@[simp] theorem Slot.setM_streamed (x : Slot) (n : BitVec 3) (v : Dword) : (x.setM n v).streamed = x.streamed := by unfold Slot.setM; split <;> rfl
@[simp] theorem Slot.setM_spawned (x : Slot) (n : BitVec 3) (v : Dword) : (x.setM n v).spawned = x.spawned := by unfold Slot.setM; split <;> rfl
@[simp] theorem Slot.setM_owner (x : Slot) (n : BitVec 3) (v : Dword) : (x.setM n v).owner = x.owner := by unfold Slot.setM; split <;> rfl
@[simp] theorem Slot.setM_rect (x : Slot) (n : BitVec 3) (v : Dword) : (x.setM n v).rect = x.rect := by unfold Slot.setM; split <;> rfl
@[simp] theorem Slot.setM_acct (x : Slot) (n : BitVec 3) (v : Dword) : (x.setM n v).acct = x.acct := by unfold Slot.setM; split <;> rfl
@[simp] theorem Slot.setM_fmta (x : Slot) (n : BitVec 3) (v : Dword) : (x.setM n v).fmta = x.fmta := by unfold Slot.setM; split <;> rfl
@[simp] theorem Slot.setM_fmtb (x : Slot) (n : BitVec 3) (v : Dword) : (x.setM n v).fmtb = x.fmtb := by unfold Slot.setM; split <;> rfl
@[simp] theorem Slot.setM_fmtc (x : Slot) (n : BitVec 3) (v : Dword) : (x.setM n v).fmtc = x.fmtc := by unfold Slot.setM; split <;> rfl
@[simp] theorem Slot.setM_scla (x : Slot) (n : BitVec 3) (v : Dword) : (x.setM n v).scla = x.scla := by unfold Slot.setM; split <;> rfl
@[simp] theorem Slot.setM_sclb (x : Slot) (n : BitVec 3) (v : Dword) : (x.setM n v).sclb = x.sclb := by unfold Slot.setM; split <;> rfl
@[simp] theorem Slot.setM_srg (x : Slot) (n : BitVec 3) (v : Dword) : (x.setM n v).srg = x.srg := by unfold Slot.setM; split <;> rfl
@[simp] theorem Slot.setM_prom (x : Slot) (n : BitVec 3) (v : Dword) : (x.setM n v).prom = x.prom := by unfold Slot.setM; split <;> rfl
@[simp] theorem Slot.setM_rnd (x : Slot) (n : BitVec 3) (v : Dword) : (x.setM n v).rnd = x.rnd := by unfold Slot.setM; split <;> rfl
@[simp] theorem Slot.setM_flags (x : Slot) (n : BitVec 3) (v : Dword) : (x.setM n v).flags = x.flags := by unfold Slot.setM; split <;> rfl
@[simp] theorem Slot.setM_hstat (x : Slot) (n : BitVec 3) (v : Dword) : (x.setM n v).hstat = x.hstat := by unfold Slot.setM; split <;> rfl
@[simp] theorem Slot.setM_fprm (x : Slot) (n : BitVec 3) (v : Dword) : (x.setM n v).fprm = x.fprm := by unfold Slot.setM; split <;> rfl
@[simp] theorem Slot.setM_tvec (x : Slot) (n : BitVec 3) (v : Dword) : (x.setM n v).tvec = x.tvec := by unfold Slot.setM; split <;> rfl
@[simp] theorem Slot.setM_tcause (x : Slot) (n : BitVec 3) (v : Dword) : (x.setM n v).tcause = x.tcause := by unfold Slot.setM; split <;> rfl
@[simp] theorem Slot.setM_taddr (x : Slot) (n : BitVec 3) (v : Dword) : (x.setM n v).taddr = x.taddr := by unfold Slot.setM; split <;> rfl
@[simp] theorem Slot.setM_tepc (x : Slot) (n : BitVec 3) (v : Dword) : (x.setM n v).tepc = x.tepc := by unfold Slot.setM; split <;> rfl
@[simp] theorem Slot.setM_tinfo (x : Slot) (n : BitVec 3) (v : Dword) : (x.setM n v).tinfo = x.tinfo := by unfold Slot.setM; split <;> rfl
@[simp] theorem Slot.setM_ten (x : Slot) (n : BitVec 3) (v : Dword) : (x.setM n v).ten = x.ten := by unfold Slot.setM; split <;> rfl
@[simp] theorem Slot.setM_wsp (x : Slot) (n : BitVec 3) (v : Dword) : (x.setM n v).wsp = x.wsp := by unfold Slot.setM; split <;> rfl
@[simp] theorem Slot.setM_wlim (x : Slot) (n : BitVec 3) (v : Dword) : (x.setM n v).wlim = x.wlim := by unfold Slot.setM; split <;> rfl
@[simp] theorem Slot.setM_cfs (x : Slot) (n : BitVec 3) (v : Dword) : (x.setM n v).cfs = x.cfs := by unfold Slot.setM; split <;> rfl
@[simp] theorem Slot.setM_cfb (x : Slot) (n : BitVec 3) (v : Dword) : (x.setM n v).cfb = x.cfb := by unfold Slot.setM; split <;> rfl
@[simp] theorem Slot.setM_tcfs (x : Slot) (n : BitVec 3) (v : Dword) : (x.setM n v).tcfs = x.tcfs := by unfold Slot.setM; split <;> rfl
@[simp] theorem Slot.setM_tcfb (x : Slot) (n : BitVec 3) (v : Dword) : (x.setM n v).tcfb = x.tcfb := by unfold Slot.setM; split <;> rfl
@[simp] theorem Slot.setM_rpt (x : Slot) (n : BitVec 3) (v : Dword) : (x.setM n v).rpt = x.rpt := by unfold Slot.setM; split <;> rfl
@[simp] theorem Slot.setM_far (x : Slot) (n : BitVec 3) (v : Dword) : (x.setM n v).far = x.far := by unfold Slot.setM; split <;> rfl
@[simp] theorem Slot.setM_relaxed (x : Slot) (n : BitVec 3) (v : Dword) : (x.setM n v).relaxed = x.relaxed := by unfold Slot.setM; split <;> rfl
@[simp] theorem Slot.setM_faults (x : Slot) (n : BitVec 3) (v : Dword) : (x.setM n v).faults = x.faults := by unfold Slot.setM; split <;> rfl
@[simp] theorem Slot.setM_resv (x : Slot) (n : BitVec 3) (v : Dword) : (x.setM n v).resv = x.resv := by unfold Slot.setM; split <;> rfl
@[simp] theorem Slot.setM_bars (x : Slot) (n : BitVec 3) (v : Dword) : (x.setM n v).bars = x.bars := by unfold Slot.setM; split <;> rfl
@[simp] theorem Slot.setM_calls (x : Slot) (n : BitVec 3) (v : Dword) : (x.setM n v).calls = x.calls := by unfold Slot.setM; split <;> rfl
@[simp] theorem Slot.setM_lastTime (x : Slot) (n : BitVec 3) (v : Dword) : (x.setM n v).lastTime = x.lastTime := by unfold Slot.setM; split <;> rfl
@[simp] theorem Slot.setM_latch (x : Slot) (n : BitVec 3) (v : Dword) : (x.setM n v).latch = x.latch := by unfold Slot.setM; split <;> rfl
@[simp] theorem Slot.setM_coming (x : Slot) (n : BitVec 3) (v : Dword) : (x.setM n v).coming = x.coming := by unfold Slot.setM; split <;> rfl
@[simp] theorem Slot.setM_buf (x : Slot) (n : BitVec 3) (v : Dword) : (x.setM n v).buf = x.buf := by unfold Slot.setM; split <;> rfl
@[simp] theorem Slot.setM_out (x : Slot) (n : BitVec 3) (v : Dword) : (x.setM n v).out = x.out := by unfold Slot.setM; split <;> rfl
@[simp] theorem Slot.setM_hold (x : Slot) (n : BitVec 3) (v : Dword) : (x.setM n v).hold = x.hold := by unfold Slot.setM; split <;> rfl
@[simp] theorem Slot.setM_held (x : Slot) (n : BitVec 3) (v : Dword) : (x.setM n v).held = x.held := by unfold Slot.setM; split <;> rfl
@[simp] theorem Slot.setM_method (x : Slot) (n : BitVec 3) (v : Dword) : (x.setM n v).method = x.method := by unfold Slot.setM; split <;> rfl

/-! Slot.setQ changes q only. -/

@[simp] theorem Slot.setQ_status (x : Slot) (n : R4) (b : Bool) : (x.setQ n b).status = x.status := by unfold Slot.setQ; split <;> rfl
@[simp] theorem Slot.setQ_since (x : Slot) (n : R4) (b : Bool) : (x.setQ n b).since = x.since := by unfold Slot.setQ; split <;> rfl
@[simp] theorem Slot.setQ_stage (x : Slot) (n : R4) (b : Bool) : (x.setQ n b).stage = x.stage := by unfold Slot.setQ; split <;> rfl
@[simp] theorem Slot.setQ_pc (x : Slot) (n : R4) (b : Bool) : (x.setQ n b).pc = x.pc := by unfold Slot.setQ; split <;> rfl
@[simp] theorem Slot.setQ_pre (x : Slot) (n : R4) (b : Bool) : (x.setQ n b).pre = x.pre := by unfold Slot.setQ; split <;> rfl
@[simp] theorem Slot.setQ_g (x : Slot) (n : R4) (b : Bool) : (x.setQ n b).g = x.g := by unfold Slot.setQ; split <;> rfl
@[simp] theorem Slot.setQ_v (x : Slot) (n : R4) (b : Bool) : (x.setQ n b).v = x.v := by unfold Slot.setQ; split <;> rfl
@[simp] theorem Slot.setQ_m (x : Slot) (n : R4) (b : Bool) : (x.setQ n b).m = x.m := by unfold Slot.setQ; split <;> rfl
@[simp] theorem Slot.setQ_segs (x : Slot) (n : R4) (b : Bool) : (x.setQ n b).segs = x.segs := by unfold Slot.setQ; split <;> rfl
@[simp] theorem Slot.setQ_frames (x : Slot) (n : R4) (b : Bool) : (x.setQ n b).frames = x.frames := by unfold Slot.setQ; split <;> rfl
@[simp] theorem Slot.setQ_spilled (x : Slot) (n : R4) (b : Bool) : (x.setQ n b).spilled = x.spilled := by unfold Slot.setQ; split <;> rfl
@[simp] theorem Slot.setQ_depth (x : Slot) (n : R4) (b : Bool) : (x.setQ n b).depth = x.depth := by unfold Slot.setQ; split <;> rfl
@[simp] theorem Slot.setQ_streamed (x : Slot) (n : R4) (b : Bool) : (x.setQ n b).streamed = x.streamed := by unfold Slot.setQ; split <;> rfl
@[simp] theorem Slot.setQ_spawned (x : Slot) (n : R4) (b : Bool) : (x.setQ n b).spawned = x.spawned := by unfold Slot.setQ; split <;> rfl
@[simp] theorem Slot.setQ_owner (x : Slot) (n : R4) (b : Bool) : (x.setQ n b).owner = x.owner := by unfold Slot.setQ; split <;> rfl
@[simp] theorem Slot.setQ_rect (x : Slot) (n : R4) (b : Bool) : (x.setQ n b).rect = x.rect := by unfold Slot.setQ; split <;> rfl
@[simp] theorem Slot.setQ_acct (x : Slot) (n : R4) (b : Bool) : (x.setQ n b).acct = x.acct := by unfold Slot.setQ; split <;> rfl
@[simp] theorem Slot.setQ_fmta (x : Slot) (n : R4) (b : Bool) : (x.setQ n b).fmta = x.fmta := by unfold Slot.setQ; split <;> rfl
@[simp] theorem Slot.setQ_fmtb (x : Slot) (n : R4) (b : Bool) : (x.setQ n b).fmtb = x.fmtb := by unfold Slot.setQ; split <;> rfl
@[simp] theorem Slot.setQ_fmtc (x : Slot) (n : R4) (b : Bool) : (x.setQ n b).fmtc = x.fmtc := by unfold Slot.setQ; split <;> rfl
@[simp] theorem Slot.setQ_scla (x : Slot) (n : R4) (b : Bool) : (x.setQ n b).scla = x.scla := by unfold Slot.setQ; split <;> rfl
@[simp] theorem Slot.setQ_sclb (x : Slot) (n : R4) (b : Bool) : (x.setQ n b).sclb = x.sclb := by unfold Slot.setQ; split <;> rfl
@[simp] theorem Slot.setQ_srg (x : Slot) (n : R4) (b : Bool) : (x.setQ n b).srg = x.srg := by unfold Slot.setQ; split <;> rfl
@[simp] theorem Slot.setQ_prom (x : Slot) (n : R4) (b : Bool) : (x.setQ n b).prom = x.prom := by unfold Slot.setQ; split <;> rfl
@[simp] theorem Slot.setQ_rnd (x : Slot) (n : R4) (b : Bool) : (x.setQ n b).rnd = x.rnd := by unfold Slot.setQ; split <;> rfl
@[simp] theorem Slot.setQ_flags (x : Slot) (n : R4) (b : Bool) : (x.setQ n b).flags = x.flags := by unfold Slot.setQ; split <;> rfl
@[simp] theorem Slot.setQ_hstat (x : Slot) (n : R4) (b : Bool) : (x.setQ n b).hstat = x.hstat := by unfold Slot.setQ; split <;> rfl
@[simp] theorem Slot.setQ_fprm (x : Slot) (n : R4) (b : Bool) : (x.setQ n b).fprm = x.fprm := by unfold Slot.setQ; split <;> rfl
@[simp] theorem Slot.setQ_tvec (x : Slot) (n : R4) (b : Bool) : (x.setQ n b).tvec = x.tvec := by unfold Slot.setQ; split <;> rfl
@[simp] theorem Slot.setQ_tcause (x : Slot) (n : R4) (b : Bool) : (x.setQ n b).tcause = x.tcause := by unfold Slot.setQ; split <;> rfl
@[simp] theorem Slot.setQ_taddr (x : Slot) (n : R4) (b : Bool) : (x.setQ n b).taddr = x.taddr := by unfold Slot.setQ; split <;> rfl
@[simp] theorem Slot.setQ_tepc (x : Slot) (n : R4) (b : Bool) : (x.setQ n b).tepc = x.tepc := by unfold Slot.setQ; split <;> rfl
@[simp] theorem Slot.setQ_tinfo (x : Slot) (n : R4) (b : Bool) : (x.setQ n b).tinfo = x.tinfo := by unfold Slot.setQ; split <;> rfl
@[simp] theorem Slot.setQ_ten (x : Slot) (n : R4) (b : Bool) : (x.setQ n b).ten = x.ten := by unfold Slot.setQ; split <;> rfl
@[simp] theorem Slot.setQ_wsp (x : Slot) (n : R4) (b : Bool) : (x.setQ n b).wsp = x.wsp := by unfold Slot.setQ; split <;> rfl
@[simp] theorem Slot.setQ_wlim (x : Slot) (n : R4) (b : Bool) : (x.setQ n b).wlim = x.wlim := by unfold Slot.setQ; split <;> rfl
@[simp] theorem Slot.setQ_cfs (x : Slot) (n : R4) (b : Bool) : (x.setQ n b).cfs = x.cfs := by unfold Slot.setQ; split <;> rfl
@[simp] theorem Slot.setQ_cfb (x : Slot) (n : R4) (b : Bool) : (x.setQ n b).cfb = x.cfb := by unfold Slot.setQ; split <;> rfl
@[simp] theorem Slot.setQ_tcfs (x : Slot) (n : R4) (b : Bool) : (x.setQ n b).tcfs = x.tcfs := by unfold Slot.setQ; split <;> rfl
@[simp] theorem Slot.setQ_tcfb (x : Slot) (n : R4) (b : Bool) : (x.setQ n b).tcfb = x.tcfb := by unfold Slot.setQ; split <;> rfl
@[simp] theorem Slot.setQ_rpt (x : Slot) (n : R4) (b : Bool) : (x.setQ n b).rpt = x.rpt := by unfold Slot.setQ; split <;> rfl
@[simp] theorem Slot.setQ_far (x : Slot) (n : R4) (b : Bool) : (x.setQ n b).far = x.far := by unfold Slot.setQ; split <;> rfl
@[simp] theorem Slot.setQ_relaxed (x : Slot) (n : R4) (b : Bool) : (x.setQ n b).relaxed = x.relaxed := by unfold Slot.setQ; split <;> rfl
@[simp] theorem Slot.setQ_faults (x : Slot) (n : R4) (b : Bool) : (x.setQ n b).faults = x.faults := by unfold Slot.setQ; split <;> rfl
@[simp] theorem Slot.setQ_resv (x : Slot) (n : R4) (b : Bool) : (x.setQ n b).resv = x.resv := by unfold Slot.setQ; split <;> rfl
@[simp] theorem Slot.setQ_bars (x : Slot) (n : R4) (b : Bool) : (x.setQ n b).bars = x.bars := by unfold Slot.setQ; split <;> rfl
@[simp] theorem Slot.setQ_calls (x : Slot) (n : R4) (b : Bool) : (x.setQ n b).calls = x.calls := by unfold Slot.setQ; split <;> rfl
@[simp] theorem Slot.setQ_lastTime (x : Slot) (n : R4) (b : Bool) : (x.setQ n b).lastTime = x.lastTime := by unfold Slot.setQ; split <;> rfl
@[simp] theorem Slot.setQ_latch (x : Slot) (n : R4) (b : Bool) : (x.setQ n b).latch = x.latch := by unfold Slot.setQ; split <;> rfl
@[simp] theorem Slot.setQ_coming (x : Slot) (n : R4) (b : Bool) : (x.setQ n b).coming = x.coming := by unfold Slot.setQ; split <;> rfl
@[simp] theorem Slot.setQ_buf (x : Slot) (n : R4) (b : Bool) : (x.setQ n b).buf = x.buf := by unfold Slot.setQ; split <;> rfl
@[simp] theorem Slot.setQ_out (x : Slot) (n : R4) (b : Bool) : (x.setQ n b).out = x.out := by unfold Slot.setQ; split <;> rfl
@[simp] theorem Slot.setQ_hold (x : Slot) (n : R4) (b : Bool) : (x.setQ n b).hold = x.hold := by unfold Slot.setQ; split <;> rfl
@[simp] theorem Slot.setQ_held (x : Slot) (n : R4) (b : Bool) : (x.setQ n b).held = x.held := by unfold Slot.setQ; split <;> rfl
@[simp] theorem Slot.setQ_method (x : Slot) (n : R4) (b : Bool) : (x.setQ n b).method = x.method := by unfold Slot.setQ; split <;> rfl

/-! Slot.setV changes v only. -/

@[simp] theorem Slot.setV_status (x : Slot) (n : R4) (v : Vec) : (x.setV n v).status = x.status := rfl
@[simp] theorem Slot.setV_since (x : Slot) (n : R4) (v : Vec) : (x.setV n v).since = x.since := rfl
@[simp] theorem Slot.setV_stage (x : Slot) (n : R4) (v : Vec) : (x.setV n v).stage = x.stage := rfl
@[simp] theorem Slot.setV_pc (x : Slot) (n : R4) (v : Vec) : (x.setV n v).pc = x.pc := rfl
@[simp] theorem Slot.setV_pre (x : Slot) (n : R4) (v : Vec) : (x.setV n v).pre = x.pre := rfl
@[simp] theorem Slot.setV_g (x : Slot) (n : R4) (v : Vec) : (x.setV n v).g = x.g := rfl
@[simp] theorem Slot.setV_m (x : Slot) (n : R4) (v : Vec) : (x.setV n v).m = x.m := rfl
@[simp] theorem Slot.setV_q (x : Slot) (n : R4) (v : Vec) : (x.setV n v).q = x.q := rfl
@[simp] theorem Slot.setV_segs (x : Slot) (n : R4) (v : Vec) : (x.setV n v).segs = x.segs := rfl
@[simp] theorem Slot.setV_frames (x : Slot) (n : R4) (v : Vec) : (x.setV n v).frames = x.frames := rfl
@[simp] theorem Slot.setV_spilled (x : Slot) (n : R4) (v : Vec) : (x.setV n v).spilled = x.spilled := rfl
@[simp] theorem Slot.setV_depth (x : Slot) (n : R4) (v : Vec) : (x.setV n v).depth = x.depth := rfl
@[simp] theorem Slot.setV_streamed (x : Slot) (n : R4) (v : Vec) : (x.setV n v).streamed = x.streamed := rfl
@[simp] theorem Slot.setV_spawned (x : Slot) (n : R4) (v : Vec) : (x.setV n v).spawned = x.spawned := rfl
@[simp] theorem Slot.setV_owner (x : Slot) (n : R4) (v : Vec) : (x.setV n v).owner = x.owner := rfl
@[simp] theorem Slot.setV_rect (x : Slot) (n : R4) (v : Vec) : (x.setV n v).rect = x.rect := rfl
@[simp] theorem Slot.setV_acct (x : Slot) (n : R4) (v : Vec) : (x.setV n v).acct = x.acct := rfl
@[simp] theorem Slot.setV_fmta (x : Slot) (n : R4) (v : Vec) : (x.setV n v).fmta = x.fmta := rfl
@[simp] theorem Slot.setV_fmtb (x : Slot) (n : R4) (v : Vec) : (x.setV n v).fmtb = x.fmtb := rfl
@[simp] theorem Slot.setV_fmtc (x : Slot) (n : R4) (v : Vec) : (x.setV n v).fmtc = x.fmtc := rfl
@[simp] theorem Slot.setV_scla (x : Slot) (n : R4) (v : Vec) : (x.setV n v).scla = x.scla := rfl
@[simp] theorem Slot.setV_sclb (x : Slot) (n : R4) (v : Vec) : (x.setV n v).sclb = x.sclb := rfl
@[simp] theorem Slot.setV_srg (x : Slot) (n : R4) (v : Vec) : (x.setV n v).srg = x.srg := rfl
@[simp] theorem Slot.setV_prom (x : Slot) (n : R4) (v : Vec) : (x.setV n v).prom = x.prom := rfl
@[simp] theorem Slot.setV_rnd (x : Slot) (n : R4) (v : Vec) : (x.setV n v).rnd = x.rnd := rfl
@[simp] theorem Slot.setV_flags (x : Slot) (n : R4) (v : Vec) : (x.setV n v).flags = x.flags := rfl
@[simp] theorem Slot.setV_hstat (x : Slot) (n : R4) (v : Vec) : (x.setV n v).hstat = x.hstat := rfl
@[simp] theorem Slot.setV_fprm (x : Slot) (n : R4) (v : Vec) : (x.setV n v).fprm = x.fprm := rfl
@[simp] theorem Slot.setV_tvec (x : Slot) (n : R4) (v : Vec) : (x.setV n v).tvec = x.tvec := rfl
@[simp] theorem Slot.setV_tcause (x : Slot) (n : R4) (v : Vec) : (x.setV n v).tcause = x.tcause := rfl
@[simp] theorem Slot.setV_taddr (x : Slot) (n : R4) (v : Vec) : (x.setV n v).taddr = x.taddr := rfl
@[simp] theorem Slot.setV_tepc (x : Slot) (n : R4) (v : Vec) : (x.setV n v).tepc = x.tepc := rfl
@[simp] theorem Slot.setV_tinfo (x : Slot) (n : R4) (v : Vec) : (x.setV n v).tinfo = x.tinfo := rfl
@[simp] theorem Slot.setV_ten (x : Slot) (n : R4) (v : Vec) : (x.setV n v).ten = x.ten := rfl
@[simp] theorem Slot.setV_wsp (x : Slot) (n : R4) (v : Vec) : (x.setV n v).wsp = x.wsp := rfl
@[simp] theorem Slot.setV_wlim (x : Slot) (n : R4) (v : Vec) : (x.setV n v).wlim = x.wlim := rfl
@[simp] theorem Slot.setV_cfs (x : Slot) (n : R4) (v : Vec) : (x.setV n v).cfs = x.cfs := rfl
@[simp] theorem Slot.setV_cfb (x : Slot) (n : R4) (v : Vec) : (x.setV n v).cfb = x.cfb := rfl
@[simp] theorem Slot.setV_tcfs (x : Slot) (n : R4) (v : Vec) : (x.setV n v).tcfs = x.tcfs := rfl
@[simp] theorem Slot.setV_tcfb (x : Slot) (n : R4) (v : Vec) : (x.setV n v).tcfb = x.tcfb := rfl
@[simp] theorem Slot.setV_rpt (x : Slot) (n : R4) (v : Vec) : (x.setV n v).rpt = x.rpt := rfl
@[simp] theorem Slot.setV_far (x : Slot) (n : R4) (v : Vec) : (x.setV n v).far = x.far := rfl
@[simp] theorem Slot.setV_relaxed (x : Slot) (n : R4) (v : Vec) : (x.setV n v).relaxed = x.relaxed := rfl
@[simp] theorem Slot.setV_faults (x : Slot) (n : R4) (v : Vec) : (x.setV n v).faults = x.faults := rfl
@[simp] theorem Slot.setV_resv (x : Slot) (n : R4) (v : Vec) : (x.setV n v).resv = x.resv := rfl
@[simp] theorem Slot.setV_bars (x : Slot) (n : R4) (v : Vec) : (x.setV n v).bars = x.bars := rfl
@[simp] theorem Slot.setV_calls (x : Slot) (n : R4) (v : Vec) : (x.setV n v).calls = x.calls := rfl
@[simp] theorem Slot.setV_lastTime (x : Slot) (n : R4) (v : Vec) : (x.setV n v).lastTime = x.lastTime := rfl
@[simp] theorem Slot.setV_latch (x : Slot) (n : R4) (v : Vec) : (x.setV n v).latch = x.latch := rfl
@[simp] theorem Slot.setV_coming (x : Slot) (n : R4) (v : Vec) : (x.setV n v).coming = x.coming := rfl
@[simp] theorem Slot.setV_buf (x : Slot) (n : R4) (v : Vec) : (x.setV n v).buf = x.buf := rfl
@[simp] theorem Slot.setV_out (x : Slot) (n : R4) (v : Vec) : (x.setV n v).out = x.out := rfl
@[simp] theorem Slot.setV_hold (x : Slot) (n : R4) (v : Vec) : (x.setV n v).hold = x.hold := rfl
@[simp] theorem Slot.setV_held (x : Slot) (n : R4) (v : Vec) : (x.setV n v).held = x.held := rfl
@[simp] theorem Slot.setV_method (x : Slot) (n : R4) (v : Vec) : (x.setV n v).method = x.method := rfl

/-! Slot.setS changes segs only. -/

@[simp] theorem Slot.setS_status (x : Slot) (n : BitVec 3) (v : BitVec 128) : (x.setS n v).status = x.status := rfl
@[simp] theorem Slot.setS_since (x : Slot) (n : BitVec 3) (v : BitVec 128) : (x.setS n v).since = x.since := rfl
@[simp] theorem Slot.setS_stage (x : Slot) (n : BitVec 3) (v : BitVec 128) : (x.setS n v).stage = x.stage := rfl
@[simp] theorem Slot.setS_pc (x : Slot) (n : BitVec 3) (v : BitVec 128) : (x.setS n v).pc = x.pc := rfl
@[simp] theorem Slot.setS_pre (x : Slot) (n : BitVec 3) (v : BitVec 128) : (x.setS n v).pre = x.pre := rfl
@[simp] theorem Slot.setS_g (x : Slot) (n : BitVec 3) (v : BitVec 128) : (x.setS n v).g = x.g := rfl
@[simp] theorem Slot.setS_v (x : Slot) (n : BitVec 3) (v : BitVec 128) : (x.setS n v).v = x.v := rfl
@[simp] theorem Slot.setS_m (x : Slot) (n : BitVec 3) (v : BitVec 128) : (x.setS n v).m = x.m := rfl
@[simp] theorem Slot.setS_q (x : Slot) (n : BitVec 3) (v : BitVec 128) : (x.setS n v).q = x.q := rfl
@[simp] theorem Slot.setS_frames (x : Slot) (n : BitVec 3) (v : BitVec 128) : (x.setS n v).frames = x.frames := rfl
@[simp] theorem Slot.setS_spilled (x : Slot) (n : BitVec 3) (v : BitVec 128) : (x.setS n v).spilled = x.spilled := rfl
@[simp] theorem Slot.setS_depth (x : Slot) (n : BitVec 3) (v : BitVec 128) : (x.setS n v).depth = x.depth := rfl
@[simp] theorem Slot.setS_streamed (x : Slot) (n : BitVec 3) (v : BitVec 128) : (x.setS n v).streamed = x.streamed := rfl
@[simp] theorem Slot.setS_spawned (x : Slot) (n : BitVec 3) (v : BitVec 128) : (x.setS n v).spawned = x.spawned := rfl
@[simp] theorem Slot.setS_owner (x : Slot) (n : BitVec 3) (v : BitVec 128) : (x.setS n v).owner = x.owner := rfl
@[simp] theorem Slot.setS_rect (x : Slot) (n : BitVec 3) (v : BitVec 128) : (x.setS n v).rect = x.rect := rfl
@[simp] theorem Slot.setS_acct (x : Slot) (n : BitVec 3) (v : BitVec 128) : (x.setS n v).acct = x.acct := rfl
@[simp] theorem Slot.setS_fmta (x : Slot) (n : BitVec 3) (v : BitVec 128) : (x.setS n v).fmta = x.fmta := rfl
@[simp] theorem Slot.setS_fmtb (x : Slot) (n : BitVec 3) (v : BitVec 128) : (x.setS n v).fmtb = x.fmtb := rfl
@[simp] theorem Slot.setS_fmtc (x : Slot) (n : BitVec 3) (v : BitVec 128) : (x.setS n v).fmtc = x.fmtc := rfl
@[simp] theorem Slot.setS_scla (x : Slot) (n : BitVec 3) (v : BitVec 128) : (x.setS n v).scla = x.scla := rfl
@[simp] theorem Slot.setS_sclb (x : Slot) (n : BitVec 3) (v : BitVec 128) : (x.setS n v).sclb = x.sclb := rfl
@[simp] theorem Slot.setS_srg (x : Slot) (n : BitVec 3) (v : BitVec 128) : (x.setS n v).srg = x.srg := rfl
@[simp] theorem Slot.setS_prom (x : Slot) (n : BitVec 3) (v : BitVec 128) : (x.setS n v).prom = x.prom := rfl
@[simp] theorem Slot.setS_rnd (x : Slot) (n : BitVec 3) (v : BitVec 128) : (x.setS n v).rnd = x.rnd := rfl
@[simp] theorem Slot.setS_flags (x : Slot) (n : BitVec 3) (v : BitVec 128) : (x.setS n v).flags = x.flags := rfl
@[simp] theorem Slot.setS_hstat (x : Slot) (n : BitVec 3) (v : BitVec 128) : (x.setS n v).hstat = x.hstat := rfl
@[simp] theorem Slot.setS_fprm (x : Slot) (n : BitVec 3) (v : BitVec 128) : (x.setS n v).fprm = x.fprm := rfl
@[simp] theorem Slot.setS_tvec (x : Slot) (n : BitVec 3) (v : BitVec 128) : (x.setS n v).tvec = x.tvec := rfl
@[simp] theorem Slot.setS_tcause (x : Slot) (n : BitVec 3) (v : BitVec 128) : (x.setS n v).tcause = x.tcause := rfl
@[simp] theorem Slot.setS_taddr (x : Slot) (n : BitVec 3) (v : BitVec 128) : (x.setS n v).taddr = x.taddr := rfl
@[simp] theorem Slot.setS_tepc (x : Slot) (n : BitVec 3) (v : BitVec 128) : (x.setS n v).tepc = x.tepc := rfl
@[simp] theorem Slot.setS_tinfo (x : Slot) (n : BitVec 3) (v : BitVec 128) : (x.setS n v).tinfo = x.tinfo := rfl
@[simp] theorem Slot.setS_ten (x : Slot) (n : BitVec 3) (v : BitVec 128) : (x.setS n v).ten = x.ten := rfl
@[simp] theorem Slot.setS_wsp (x : Slot) (n : BitVec 3) (v : BitVec 128) : (x.setS n v).wsp = x.wsp := rfl
@[simp] theorem Slot.setS_wlim (x : Slot) (n : BitVec 3) (v : BitVec 128) : (x.setS n v).wlim = x.wlim := rfl
@[simp] theorem Slot.setS_cfs (x : Slot) (n : BitVec 3) (v : BitVec 128) : (x.setS n v).cfs = x.cfs := rfl
@[simp] theorem Slot.setS_cfb (x : Slot) (n : BitVec 3) (v : BitVec 128) : (x.setS n v).cfb = x.cfb := rfl
@[simp] theorem Slot.setS_tcfs (x : Slot) (n : BitVec 3) (v : BitVec 128) : (x.setS n v).tcfs = x.tcfs := rfl
@[simp] theorem Slot.setS_tcfb (x : Slot) (n : BitVec 3) (v : BitVec 128) : (x.setS n v).tcfb = x.tcfb := rfl
@[simp] theorem Slot.setS_rpt (x : Slot) (n : BitVec 3) (v : BitVec 128) : (x.setS n v).rpt = x.rpt := rfl
@[simp] theorem Slot.setS_far (x : Slot) (n : BitVec 3) (v : BitVec 128) : (x.setS n v).far = x.far := rfl
@[simp] theorem Slot.setS_relaxed (x : Slot) (n : BitVec 3) (v : BitVec 128) : (x.setS n v).relaxed = x.relaxed := rfl
@[simp] theorem Slot.setS_faults (x : Slot) (n : BitVec 3) (v : BitVec 128) : (x.setS n v).faults = x.faults := rfl
@[simp] theorem Slot.setS_resv (x : Slot) (n : BitVec 3) (v : BitVec 128) : (x.setS n v).resv = x.resv := rfl
@[simp] theorem Slot.setS_bars (x : Slot) (n : BitVec 3) (v : BitVec 128) : (x.setS n v).bars = x.bars := rfl
@[simp] theorem Slot.setS_calls (x : Slot) (n : BitVec 3) (v : BitVec 128) : (x.setS n v).calls = x.calls := rfl
@[simp] theorem Slot.setS_lastTime (x : Slot) (n : BitVec 3) (v : BitVec 128) : (x.setS n v).lastTime = x.lastTime := rfl
@[simp] theorem Slot.setS_latch (x : Slot) (n : BitVec 3) (v : BitVec 128) : (x.setS n v).latch = x.latch := rfl
@[simp] theorem Slot.setS_coming (x : Slot) (n : BitVec 3) (v : BitVec 128) : (x.setS n v).coming = x.coming := rfl
@[simp] theorem Slot.setS_buf (x : Slot) (n : BitVec 3) (v : BitVec 128) : (x.setS n v).buf = x.buf := rfl
@[simp] theorem Slot.setS_out (x : Slot) (n : BitVec 3) (v : BitVec 128) : (x.setS n v).out = x.out := rfl
@[simp] theorem Slot.setS_hold (x : Slot) (n : BitVec 3) (v : BitVec 128) : (x.setS n v).hold = x.hold := rfl
@[simp] theorem Slot.setS_held (x : Slot) (n : BitVec 3) (v : BitVec 128) : (x.setS n v).held = x.held := rfl
@[simp] theorem Slot.setS_method (x : Slot) (n : BitVec 3) (v : BitVec 128) : (x.setS n v).method = x.method := rfl

end Sys2Proof.Machine
end

