-- ==== Sys2Proof/Laws/Ops.lean ====
section
/-! SUPPORT. Laws of the named operations over registers, slots, sites, banks and memory: what is read after a write, and
that memory keeps its canonical form. -/
namespace Sys2Proof.Machine

/-! Reading after writing, by table. -/

@[simp] theorem State.slot_setSlot (s : State) (r : SlotRef) (x : Slot) : (s.setSlot r x).slot r = x := by
  simp [State.slot, State.setSlot]

theorem State.slot_setSlot_ne (s : State) {r t : SlotRef} (x : Slot) (h : slotKey t ≠ slotKey r) :
    (s.setSlot r x).slot t = s.slot t := by
  simp [State.slot, State.setSlot, tget_tset_ne _ _ _ h]

@[simp] theorem State.slot_modSlot (s : State) (r : SlotRef) (f : Slot → Slot) : (s.modSlot r f).slot r = f (s.slot r) := by
  simp [State.modSlot]

theorem State.slot_modSlot_ne (s : State) {r t : SlotRef} (f : Slot → Slot) (h : slotKey t ≠ slotKey r) :
    (s.modSlot r f).slot t = s.slot t := State.slot_setSlot_ne s _ h

@[simp] theorem State.site_setSite (s : State) (p : Nat) (x : Site) : (s.setSite p x).site p = x := by
  simp [State.site, State.setSite]

theorem State.site_setSite_ne (s : State) {p t : Nat} (x : Site) (h : t ≠ p) : (s.setSite p x).site t = s.site t := by
  simp [State.site, State.setSite, tget_tset_ne _ _ _ h]

@[simp] theorem State.site_modSite (s : State) (p : Nat) (f : Site → Site) : (s.modSite p f).site p = f (s.site p) := by
  simp [State.modSite]

theorem State.site_modSite_ne (s : State) {p t : Nat} (f : Site → Site) (h : t ≠ p) : (s.modSite p f).site t = s.site t :=
  State.site_setSite_ne s _ h

@[simp] theorem State.bank_setBank (s : State) (b : Nat) (x : Bank) : (s.setBank b x).bank b = x := by
  simp [State.bank, State.setBank]

theorem State.bank_setBank_ne (s : State) {b t : Nat} (x : Bank) (h : t ≠ b) : (s.setBank b x).bank t = s.bank t := by
  simp [State.bank, State.setBank, tget_tset_ne _ _ _ h]

@[simp] theorem State.bank_modBank (s : State) (b : Nat) (f : Bank → Bank) : (s.modBank b f).bank b = f (s.bank b) := by
  simp [State.modBank]

theorem State.bank_modBank_ne (s : State) {b t : Nat} (f : Bank → Bank) (h : t ≠ b) : (s.modBank b f).bank t = s.bank t :=
  State.bank_setBank_ne s _ h

@[simp] theorem State.die_modDie (s : State) (d : Nat) (f : Die → Die) : (s.modDie d f).die d = f (s.die d) := by
  simp [State.die, State.modDie]

theorem State.die_modDie_ne (s : State) {d t : Nat} (f : Die → Die) (h : t ≠ d) : (s.modDie d f).die t = s.die t := by
  simp [State.die, State.modDie, tget_tset_ne _ _ _ h]

@[simp] theorem State.md_modMd (s : State) (d : Nat) (f : MemDie → MemDie) : (s.modMd d f).md d = f (s.md d) := by
  simp [State.md, State.modMd]

@[simp] theorem State.tst_modTst (s : State) (n : Nat) (f : Turnstile → Turnstile) : (s.modTst n f).tst n = f (s.tst n) := by
  simp [State.tst, State.modTst]

theorem State.tst_modTst_ne (s : State) {n t : Nat} (f : Turnstile → Turnstile) (h : t ≠ n) :
    (s.modTst n f).tst t = s.tst t := by
  simp [State.tst, State.modTst, tget_tset_ne _ _ _ h]

@[simp] theorem State.obj_modObj (s : State) (n : Nat) (f : Object → Object) : (s.modObj n f).obj n = f (s.obj n) := by
  simp [State.obj, State.modObj]

@[simp] theorem State.iod_modIod (s : State) (f : Iod → Iod) : (s.modIod f).iod = f s.iod := rfl
@[simp] theorem State.work_post (s : State) (e : Instr) : (s.post e).work = s.work ++ [e] := rfl
@[simp] theorem State.work_posts (s : State) (es : List Instr) : (s.posts es).work = s.work ++ es := rfl

theorem State.setSlot_setSlot (s : State) (r : SlotRef) (x y : Slot) :
    ((s.setSlot r x).setSlot r y).slot r = y := by simp

/-! What reads of other tables see of an update. -/

@[simp] theorem State.site_setSlot (s : State) (r : SlotRef) (x : Slot) (p : Nat) : (s.setSlot r x).site p = s.site p := rfl
@[simp] theorem State.site_modSlot (s : State) (r : SlotRef) (f : Slot → Slot) (p : Nat) : (s.modSlot r f).site p = s.site p := rfl
@[simp] theorem State.slot_modSite (s : State) (p : Nat) (f : Site → Site) (r : SlotRef) : (s.modSite p f).slot r = s.slot r := rfl
@[simp] theorem State.slot_modIod (s : State) (f : Iod → Iod) (r : SlotRef) : (s.modIod f).slot r = s.slot r := rfl
@[simp] theorem State.slot_post (s : State) (e : Instr) (r : SlotRef) : (s.post e).slot r = s.slot r := rfl
@[simp] theorem State.slot_bump (s : State) (r : SlotRef) : s.bump.slot r = s.slot r := rfl
@[simp] theorem State.slot_modDie (s : State) (d : Nat) (f : Die → Die) (r : SlotRef) : (s.modDie d f).slot r = s.slot r := rfl
@[simp] theorem State.slot_modBank (s : State) (b : Nat) (f : Bank → Bank) (r : SlotRef) : (s.modBank b f).slot r = s.slot r := rfl
@[simp] theorem State.slot_setBytes (s : State) (k : Nat) (bs : List Byte) (r : SlotRef) : (s.setBytes k bs).slot r = s.slot r := rfl
@[simp] theorem State.byte_setSlot (s : State) (r : SlotRef) (x : Slot) (k : Nat) : (s.setSlot r x).byte k = s.byte k := rfl
@[simp] theorem State.byte_modSlot (s : State) (r : SlotRef) (f : Slot → Slot) (k : Nat) : (s.modSlot r f).byte k = s.byte k := rfl

/-! Registers (R70). -/

@[simp] theorem Slot.getG_zero (x : Slot) : x.getG 0 = 0 := rfl
@[simp] theorem Slot.setG_zero (x : Slot) (v : Dword) : x.setG 0 v = x := rfl
@[simp] theorem Slot.getM_zero (x : Slot) : x.getM 0 = -1 := rfl
@[simp] theorem Slot.setM_zero (x : Slot) (v : Dword) : x.setM 0 v = x := rfl
@[simp] theorem Slot.getQ_zero (x : Slot) : x.getQ 0 = true := rfl
@[simp] theorem Slot.setQ_zero (x : Slot) (b : Bool) : x.setQ 0 b = x := rfl

/-- A g register other than g0 reads what was written. -/
theorem Slot.getG_setG (x : Slot) (n : R4) (v : Dword) (h : n ≠ 0) : (x.setG n v).getG n = v := by
  unfold Slot.getG Slot.setG
  rw [if_neg h, if_neg h]
  exact tget_tset_same 0 x.g _ v

/-- Every other g register stays. -/
theorem Slot.getG_setG_ne (x : Slot) {n k : R4} (v : Dword) (h : k ≠ n) : (x.setG n v).getG k = x.getG k := by
  unfold Slot.setG
  split
  · rfl
  · simp only [Slot.getG]
    split
    · rfl
    · exact tget_tset_ne 0 x.g v fun e => h (BitVec.eq_of_toNat_eq e)

@[simp] theorem Slot.getV_setV (x : Slot) (n : R4) (v : Vec) : (x.setV n v).getV n = v := by
  simp [Slot.getV, Slot.setV]

theorem Slot.getV_setV_ne (x : Slot) {n k : R4} (v : Vec) (h : k ≠ n) : (x.setV n v).getV k = x.getV k :=
  tget_tset_ne 0 x.v v fun e => h (BitVec.eq_of_toNat_eq e)

@[simp] theorem Slot.getV_setG (x : Slot) (n k : R4) (v : Dword) : (x.setG n v).getV k = x.getV k := by
  simp [Slot.getV]

@[simp] theorem Slot.getG_setV (x : Slot) (n k : R4) (v : Vec) : (x.setV n v).getG k = x.getG k := rfl

theorem Slot.getM_setM (x : Slot) (n : BitVec 3) (v : Dword) (h : n ≠ 0) : (x.setM n v).getM n = v := by
  unfold Slot.getM Slot.setM
  rw [if_neg h, if_neg h]
  exact tget_tset_same 0 x.m _ v

theorem Slot.getM_setM_ne (x : Slot) {n k : BitVec 3} (v : Dword) (h : k ≠ n) : (x.setM n v).getM k = x.getM k := by
  unfold Slot.setM
  split
  · rfl
  · simp only [Slot.getM]
    split
    · rfl
    · exact tget_tset_ne 0 x.m v fun e => h (BitVec.eq_of_toNat_eq e)

@[simp] theorem Slot.getS_setS (x : Slot) (n : BitVec 3) (v : BitVec 128) : (x.setS n v).getS n = v := by
  simp [Slot.getS, Slot.setS]

/-- The bits of QW after a predicate is written. -/
theorem setQ_bits : ∀ (n k : R4) (w : BitVec 16) (b : Bool), n ≠ 0 →
    ((w &&& ~~~((1 : BitVec 16) <<< n.toNat)) ||| ((BitVec.ofNat 16 b.toNat) <<< n.toNat)).getLsbD k.toNat =
      if k = n then b else w.getLsbD k.toNat := by
  intro n k w b _
  have hn : n.toNat < 16 := n.isLt
  have hk : k.toNat < 16 := k.isLt
  have hkn : (k = n) = (k.toNat = n.toNat) := propext ⟨fun h => h ▸ rfl, BitVec.eq_of_toNat_eq⟩
  have h1 : ((1 : BitVec 16) <<< n.toNat).getLsbD k.toNat = decide (k.toNat = n.toNat) := by
    by_cases h : k.toNat = n.toNat
    · simp [h, hn]
    · by_cases h2 : k.toNat < n.toNat
      · simp [h2, h]
      · have h3 : k.toNat - n.toNat ≠ 0 := by omega
        simp [h, h3, hk]
  have hb : ((BitVec.ofNat 16 b.toNat) <<< n.toNat).getLsbD k.toNat = (decide (k.toNat = n.toNat) && b) := by
    cases b
    · simp
    · simpa using h1
  rw [BitVec.getLsbD_or, BitVec.getLsbD_and, BitVec.getLsbD_not, h1, hb]
  by_cases h : k.toNat = n.toNat
  · have : k = n := BitVec.eq_of_toNat_eq h
    simp [this]
  · simp [hkn, h, hk]

theorem Slot.getQ_setQ (x : Slot) (n : R4) (b : Bool) (h : n ≠ 0) : (x.setQ n b).getQ n = b := by
  simp only [Slot.getQ, Slot.setQ, h, if_false]
  rw [setQ_bits n n x.q b h, if_pos rfl, beq_eq_false_iff_ne.mpr h, Bool.false_or]

theorem Slot.getQ_setQ_ne (x : Slot) {n k : R4} (b : Bool) (h : k ≠ n) : (x.setQ n b).getQ k = x.getQ k := by
  by_cases h0 : n = 0
  · simp [Slot.setQ, h0]
  · simp only [Slot.getQ, Slot.setQ, h0, if_false]
    rw [setQ_bits n k x.q b h0]
    simp [h]

/-! Memory (R4). -/

@[simp] theorem State.byte_setByte (s : State) (k : Nat) (b : Byte) : (s.setByte k b).byte k = b := by
  simp [State.byte, State.setByte]

theorem State.byte_setByte_ne (s : State) {k j : Nat} (b : Byte) (h : j ≠ k) : (s.setByte k b).byte j = s.byte j :=
  tget_tset_ne 0 s.mem b h

theorem putBytes_outside (bs : List Byte) : ∀ (m : List Host.Cell) (k j : Nat), (j < k ∨ k + bs.length ≤ j) →
    tget 0 (putBytes m k bs) j = tget 0 m j := by
  induction bs with
  | nil => intro m k j _; rfl
  | cons b bs ih =>
    intro m k j h
    simp only [putBytes, List.length_cons] at h ⊢
    rw [ih _ (k + 1) j (by omega)]
    exact tget_tset_ne 0 m b (by omega)

theorem putBytes_inside (bs : List Byte) : ∀ (m : List Host.Cell) (k i : Nat) (h : i < bs.length),
    tget 0 (putBytes m k bs) (k + i) = bs[i] := by
  induction bs with
  | nil => intro m k i h; exact absurd h (Nat.not_lt_zero i)
  | cons b bs ih =>
    intro m k i h
    simp only [putBytes]
    cases i with
    | zero =>
      show tget 0 (putBytes (tset 0 m k b) (k + 1) bs) k = b
      rw [putBytes_outside bs _ (k + 1) k (by omega)]
      exact tget_tset_same 0 m k b
    | succ i =>
      have := ih (tset 0 m k b) (k + 1) i (by simpa using h)
      simpa [Nat.add_assoc, Nat.add_comm 1 i] using this

/-- A store leaves every byte outside it alone. -/
theorem State.byte_setBytes_outside (s : State) (k j : Nat) (bs : List Byte) (h : j < k ∨ k + bs.length ≤ j) :
    (s.setBytes k bs).byte j = s.byte j := putBytes_outside bs s.mem k j h

/-- A store puts its bytes in place. -/
theorem State.byte_setBytes_inside (s : State) (k i : Nat) (bs : List Byte) (h : i < bs.length) :
    (s.setBytes k bs).byte (k + i) = bs[i] := putBytes_inside bs s.mem k i h

/-! The canonical form of memory. -/

theorem Memory.wf_nil : Memory.wf [] = true := rfl

theorem Memory.wf_tset (m : List Host.Cell) (k : Nat) (b : Byte) (h : Memory.wf m = true) : Memory.wf (tset 0 m k b) = true :=
  twf_tset 0 m k b h

theorem Memory.wf_filter (m : List Host.Cell) (p : Host.Cell → Bool) (h : Memory.wf m = true) : Memory.wf (m.filter p) = true :=
  twf_filter 0 m p h

theorem Memory.wf_putBytes (bs : List Byte) : ∀ (m : List Host.Cell) (k : Nat), Memory.wf m = true →
    Memory.wf (putBytes m k bs) = true := by
  induction bs with
  | nil => intro m k h; exact h
  | cons b bs ih => intro m k h; exact ih _ _ (Memory.wf_tset m k b h)

/-- Writing a byte keeps memory canonical. -/
theorem State.wf_setByte (s : State) (k : Nat) (b : Byte) (h : Memory.wf s.mem = true) : Memory.wf (s.setByte k b).mem = true :=
  Memory.wf_tset s.mem k b h

/-- Writing bytes keeps memory canonical. -/
theorem State.wf_setBytes (s : State) (k : Nat) (bs : List Byte) (h : Memory.wf s.mem = true) :
    Memory.wf (s.setBytes k bs).mem = true := Memory.wf_putBytes bs s.mem k h

/-- Writing a piece of an access keeps memory canonical. -/
theorem State.wf_writePiece (s : State) (p : Piece) (data : List Byte) (h : Memory.wf s.mem = true) :
    Memory.wf (s.writePiece p data).mem = true := by
  unfold State.writePiece
  split <;> exact Memory.wf_putBytes _ s.mem p.key h

/-- The part's own writes by physical address keep memory canonical. -/
theorem State.wf_physPut (key : Nat) (bs : List Byte) : ∀ (s : State) (pa : Nat), Memory.wf s.mem = true →
    Memory.wf (s.physPut key pa bs).mem = true := by
  induction bs with
  | nil => intro s pa h; exact h
  | cons b bs ih =>
    intro s pa h
    refine ih _ _ ?_
    split
    · exact Memory.wf_tset s.mem _ b h
    · exact h

/-- A sequence of updates that each leave memory alone leaves memory alone. -/
theorem State.mem_foldl {α : Type} (f : State → α → State) (h : ∀ s a, (f s a).mem = s.mem) (l : List α) :
    ∀ s, (l.foldl f s).mem = s.mem := by
  induction l with
  | nil => intro s; rfl
  | cons a l ih => intro s; exact (ih _).trans (h s a)

@[simp] theorem State.mem_lineTraffic (s : State) (node : Nat) (write : Bool) (pa n : Nat) :
    (s.lineTraffic node write pa n).mem = s.mem :=
  State.mem_foldl _ (fun _ _ => State.exchange_mem ..) _ s

@[simp] theorem State.mem_ownLines (s : State) (node : Nat) (write : Bool) (pa n : Nat) :
    (s.ownLines node write pa n).mem = s.mem := State.mem_lineTraffic s node write pa n

/-- A unit's write to DRAM changes in memory what it puts there, and no more. -/
@[simp] theorem State.mem_physWrite (s : State) (node key pa : Nat) (bs : List Byte) :
    (s.physWrite node key pa bs).mem = (s.physPut key pa bs).mem := State.mem_ownLines ..

/-- So do the counted ones. -/
theorem State.wf_physWrite (s : State) (node key pa : Nat) (bs : List Byte) (h : Memory.wf s.mem = true) :
    Memory.wf (s.physWrite node key pa bs).mem = true := by
  rw [State.mem_physWrite]
  exact State.wf_physPut key bs s pa h

@[simp] theorem State.mem_rewriteRun (s : State) (k n : Nat) : (s.rewriteRun k n).mem = s.mem := by
  unfold State.rewriteRun
  split <;> rfl

@[simp] theorem State.mem_clearPoison (s : State) (p : Piece) : (s.clearPoison p).mem = s.mem := by
  simp only [State.clearPoison, State.mem_rewriteRun]
  induction wholeUnits p.key p.n generalizing s with
  | nil => rfl
  | cons u us ih => simpa using ih (s.setPoison u false)

/-- Reset memory is canonical. -/
theorem State.wf_reset : Memory.wf State.reset.mem = true := rfl

end Sys2Proof.Machine
end

