-- ==== Sys2Proof/Laws/Issue.lean ====
section
/-! SUPPORT. Laws of one issue: what an instruction that reaches its own effect does, and what its outcome does to the
slot. -/
namespace Sys2Proof.Machine

@[simp] theorem Slot.spend_q (x : Slot) : x.spend.q = x.q := by
  unfold Slot.spend; split
  · split <;> rfl
  · rfl

@[simp] theorem Slot.spend_streamed (x : Slot) : x.spend.streamed = x.streamed := by
  unfold Slot.spend; split
  · split <;> rfl
  · rfl

@[simp] theorem Slot.spend_relaxed (x : Slot) : x.spend.relaxed = x.relaxed := by
  unfold Slot.spend; split
  · split <;> rfl
  · rfl

@[simp] theorem Slot.spend_faults (x : Slot) : x.spend.faults = x.faults := by
  unfold Slot.spend; split
  · split <;> rfl
  · rfl

@[simp] theorem Slot.spend_g (x : Slot) : x.spend.g = x.g := by
  unfold Slot.spend; split
  · split <;> rfl
  · rfl

@[simp] theorem Slot.spend_getQ (x : Slot) (n : R4) : x.spend.getQ n = x.getQ n := by simp [Slot.getQ]

@[simp] theorem Slot.spend_getG (x : Slot) (n : R4) : x.spend.getG n = x.getG n := by simp [Slot.getG]

/-- Outside a method the slot is not changed by the beginning of an issue. -/
theorem Slot.spend_of_none (x : Slot) (h : x.method = none) : x.spend = x := by simp [Slot.spend, h]

@[simp] theorem readsGuard_spend (x : Slot) (i : Instr) : readsGuard x.spend i = readsGuard x i := by
  cases i <;> simp [readsGuard]

@[simp] theorem Slot.drained_spend (x : Slot) (n : Nat) : x.spend.drained n = x.drained n := by
  unfold Slot.drained; split <;> simp

@[simp] theorem State.slot_chargeIssue (s : State) (r t : SlotRef) : (s.chargeIssue r).slot t = s.slot t := by
  unfold State.chargeIssue
  simp only
  split <;> rfl

@[simp] theorem State.cur_chargeIssue (s : State) (r : SlotRef) : (s.chargeIssue r).cur = s.cur := by
  unfold State.chargeIssue
  simp only
  split <;> rfl

@[simp] theorem State.cur_begun (s : State) : s.begun.cur = s.cur := by simp [State.begun]

theorem State.now_eq (s : State) : s.now = (s.slot s.cur).spend := by simp [State.now, State.begun]

/-- An instruction that reaches its own effect has exactly that effect, and its outcome settles. -/
theorem issue_issues (i : Instr) (q : R4) (s : State) (body : SlotRef → Slot → State → Res) (h : s.issues i q = true) :
    issue i q s body = .next (s.begun.settle s.cur (wordsOf i) (body s.cur s.now s.begun)) := by
  simp only [State.issues, Bool.and_eq_true, Option.isNone_iff_eq_none] at h
  obtain ⟨⟨⟨⟨⟨h1, h2⟩, h3⟩, h4⟩, h5⟩, h6⟩ := h
  have hg : ((s.slot s.cur).spend.getQ q || readsGuard (s.slot s.cur).spend i) = true := by simpa using h3
  have hs : syncs i true none (s.slot s.cur).spend = isSync i := by simp [syncs]
  have hsync : (isSync i && !(s.slot s.cur).spend.drained 0) = false := by
    cases hi : isSync i <;> simp [hi] at h5 ⊢; exact h5.1
  have hf : (if isSync i = true then (s.slot s.cur).spend.faults else []) = [] := by
    cases hi : isSync i <;> simp [hi] at h5 ⊢; exact h5.2
  have hr : ((s.slot s.cur).spend.relaxed.any fun a => a.blocks (gUse i) (vUse i)) = false := by simpa using h6
  unfold issue
  simp only [State.slot_chargeIssue, h1, h2, State.slot_setSlot, hg, hs, h4, hsync, hf, hr, State.now, State.begun,
    State.cur_chargeIssue, Bool.false_eq_true, if_false, Bool.not_true, Bool.and_false]

/-- The beginning of an issue changes the current slot and the accounts only. -/
theorem State.begun_eq (s : State) : s.begun = { s with slots := s.begun.slots, iod := s.begun.iod } := by
  unfold State.begun State.chargeIssue
  simp only
  split <;> rfl

theorem State.slot_begun_ne (s : State) {r : SlotRef} (h : slotKey r ≠ slotKey s.cur) : s.begun.slot r = s.slot r := by
  simp only [State.begun, State.cur_chargeIssue, State.slot_setSlot_ne _ _ h, State.slot_chargeIssue]

@[simp] theorem State.byte_begun (s : State) (k : Nat) : s.begun.byte k = s.byte k := by
  rw [State.begun_eq]; rfl

@[simp] theorem State.site_begun (s : State) (p : Nat) : s.begun.site p = s.site p := by
  rw [State.begun_eq]; rfl

/-- An instruction that only changes its slot leaves everything else as it was. -/
theorem State.onlySlot_done (s : State) (i : Instr) (f : Slot → Slot) :
    s.onlySlot (s.begun.settle s.cur (wordsOf i) (.done (s.begun.modSlot s.cur f))) (s.past i (f s.now)) := by
  refine ⟨?_, fun r h => ?_, fun k => ?_, ?_⟩
  · simp [State.settle, State.past, State.now]
  · simp only [State.settle]
    rw [State.slot_modSlot_ne _ _ h, State.slot_modSlot_ne _ _ h, State.slot_begun_ne s h]
  · simp [State.settle]
  · rw [State.begun_eq]; rfl

/-- As `State.onlySlot_done`, for a meaning that sets the slot. -/
theorem State.onlySlot_set (s : State) (i : Instr) (y : Slot) :
    s.onlySlot (s.begun.settle s.cur (wordsOf i) (.done (s.begun.setSlot s.cur y))) (s.past i y) :=
  State.onlySlot_done s i fun _ => y

/-- An instruction with no effect of its own only goes on. -/
theorem State.onlySlot_pass (s : State) (i : Instr) :
    s.onlySlot (s.begun.settle s.cur (wordsOf i) (.done s.begun)) (s.past i s.now) := by
  refine ⟨?_, fun r h => ?_, fun k => ?_, ?_⟩
  · simp [State.settle, State.past, State.now]
  · simp only [State.settle]
    rw [State.slot_modSlot_ne _ _ h, State.slot_begun_ne s h]
  · simp [State.settle]
  · rw [State.begun_eq]; rfl

/-! How one issue ends, by what the instruction's own effect answers. -/

section
variable {s : State} {i : Instr} {q : R4} {body : SlotRef → Slot → State → Res}

/-- A meaning that only changes its slot. -/
theorem issue_done (h : s.issues i q = true) (f : Slot → Slot) (hb : body s.cur s.now s.begun = .done (s.begun.modSlot s.cur f)) :
    ∃ t, issue i q s body = .next t ∧ s.onlySlot t (s.past i (f s.now)) :=
  ⟨_, by rw [issue_issues _ _ _ _ h, hb], State.onlySlot_done s i f⟩

/-- A meaning that writes one g register. -/
theorem issue_doneG {d : R4} {v : Dword} (h : s.issues i q = true) (hb : body s.cur s.now s.begun = doneG s.begun s.cur d v) :
    ∃ t, issue i q s body = .next t ∧ s.onlySlot t (s.past i (s.now.setG d v)) :=
  issue_done h (fun x => x.setG d v) hb

/-- A meaning that writes one predicate. -/
theorem issue_doneQ {d : R4} {v : Bool} (h : s.issues i q = true) (hb : body s.cur s.now s.begun = doneQ s.begun s.cur d v) :
    ∃ t, issue i q s body = .next t ∧ s.onlySlot t (s.past i (s.now.setQ d v)) :=
  issue_done h (fun x => x.setQ d v) hb

/-- A meaning that traps. -/
theorem issue_trap {u : TrapInfo} (h : s.issues i q = true) (hb : body s.cur s.now s.begun = .trap u) :
    issue i q s body = .next (s.begun.takeTrap s.cur u) := by
  rw [issue_issues _ _ _ _ h, hb]; rfl

/-- A meaning that parks. -/
theorem issue_park {u : State} {p : Park} (h : s.issues i q = true) (hb : body s.cur s.now s.begun = .park u p) :
    issue i q s body = .next (u.parkOn s.cur p) := by
  rw [issue_issues _ _ _ _ h, hb]; rfl

/-- A meaning that has settled where its slot goes on. -/
theorem issue_ended {u : State} (h : s.issues i q = true) (hb : body s.cur s.now s.begun = .ended u) :
    issue i q s body = .next u := by
  rw [issue_issues _ _ _ _ h, hb]; rfl

/-- A meaning whose flags are not enabled. -/
theorem issue_flags {f : BitVec 6} {eff : Slot → Slot} (h : s.issues i q = true)
    (hb : body s.cur s.now s.begun = withFlags s.begun s.cur f eff) (he : s.now.enabled f = 0) :
    ∃ t, issue i q s body = .next t ∧ s.onlySlot t (s.past i (eff (s.now.raise f))) := by
  refine issue_done h (fun x => eff (x.raise f)) (hb.trans ?_)
  have e : (s.begun.slot s.cur).enabled f = 0 := he
  simp only [withFlags, e, ne_eq, not_true_eq_false, if_false]
  rfl

/-- A meaning one of whose flags is enabled. -/
theorem issue_fpx {f : BitVec 6} {eff : Slot → Slot} (h : s.issues i q = true)
    (hb : body s.cur s.now s.begun = withFlags s.begun s.cur f eff) (he : s.now.enabled f ≠ 0) :
    issue i q s body = .next ((s.begun.setSlot s.cur (s.now.raise f)).takeTrap s.cur (fpx (s.now.enabled f))) := by
  have e : (s.begun.slot s.cur).enabled f ≠ 0 := he
  rw [issue_issues _ _ _ _ h, hb]
  simp only [withFlags, e, ne_eq, not_false_eq_true, if_true]
  rfl

/-- A control word of a local-mode slot (R64). -/
theorem issue_jump_local {y : Slot} {taken : Bool} {target : BitVec 16} (h : s.issues i q = true) (hy : y.streamed = false)
    (hb : body s.cur s.now s.begun = .jump (s.begun.setSlot s.cur y) taken target) :
    ∃ t, issue i q s body = .next t ∧ s.onlySlot t { y with pc := target, pre := none, since := 0, stage := .fresh } := by
  refine ⟨_, by rw [issue_issues _ _ _ _ h, hb], ?_⟩
  simp only [State.settle, State.slot_setSlot, hy, Bool.false_eq_true, if_false]
  refine ⟨by simp, fun r hr => ?_, fun k => by simp, ?_⟩
  · rw [State.slot_setSlot_ne _ _ hr, State.slot_setSlot_ne _ _ hr, State.slot_begun_ne s hr]
  · rw [State.begun_eq]; rfl

end

/-! Retiring (R62, R64). -/

/-- In local mode, outside a frame, a slot goes on at the next word and nothing else of it changes but what the issue of an
instruction ends: its prefix and what a parked issue had got. -/
theorem Slot.retire_local (x : Slot) (east : Bool) (n : Nat) (h : x.rpt = none) (h' : x.streamed = false) :
    x.retire east n = { x with pc := x.pc + BitVec.ofNat 16 (4 * n), pre := none, since := 0, stage := .fresh } := by
  simp [Slot.retire, Slot.advance, h, h']

end Sys2Proof.Machine
end

