-- ==== Sys2Proof/Tests/Slice0.lean ====
section
/-! SUPPORT. Tests: what well-formedness refuses, words of the manual decoded, worked results of the manual, and for each statement a
state and operands that meet its hypotheses. -/
namespace Sys2Proof.Tests
open Sys2Proof.Machine

set_option Elab.async false

/-! Well-formedness refuses an instruction that breaks each limit (R43-R45, R53, R56, R57). -/

theorem test_wf_sets : (Instr.sets 0 0 1 0).wf = false := by decide +kernel
theorem test_wf_recv : (Instr.recv 0 0 1).wf = false := by decide +kernel
theorem test_wf_pop : (Instr.pop 0 5 1).wf = false := by decide +kernel
theorem test_wf_cvt : (Instr.cvt 0 .px8 .f32 1 2).wf = false := by decide +kernel
theorem test_wf_ldLong : (Instr.ldLong 0 .i64 4 1 1 2).wf = false := by decide +kernel
theorem test_wf_stLong : (Instr.stLong 0 2 2 1 1 2).wf = false := by decide +kernel
theorem test_wf_acas : (Instr.acas 0 true 4 1 1 2 3).wf = false := by decide +kernel
theorem test_wf_shld : (Instr.shld 0 0 16 1 1).wf = false ∧ (Instr.shst 0 0 16 1 1).wf = false := by decide +kernel
theorem test_wf_zeroing : (Instr.vadd 0 .i32 true 0 1 2 3).wf = false ∧ (Instr.vmov 0 .i32 true 0 1 2).wf = false := by decide +kernel
theorem test_wf_int : (Instr.vand 0 .f32 false 1 1 2 3).wf = false ∧ (Instr.vcmpN 0 .f32 .lt 1 2 1).wf = false := by decide +kernel
theorem test_wf_mask : (Instr.vcmp 0 .f32 .lt 1 2 0).wf = false := by decide +kernel
theorem test_wf_float : (Instr.vrcp 0 .i32 false 1 2 3).wf = false := by decide +kernel
theorem test_wf_vcvt : (Instr.vcvt 0 .f32 false 1 .px8 1 2).wf = false ∧ (Instr.vcvtN 0 .f32 false 1 .i8 1 2).wf = false := by decide +kernel
theorem test_wf_qscl : (Instr.qscl 0 .f32 .e4m3 1 2).wf = false ∧ (Instr.qcvt 0 .f32 .px8 2 2).wf = false := by decide +kernel
theorem test_wf_copy : (Instr.cpyg 0 1 2 3 4 none none 0).wf = false ∧ (Instr.getr 0 1 2 3 4 none none 0).wf = false := by decide +kernel
theorem test_wf_shaped : (Instr.vlds 0 1 0 1 3 2).wf = false ∧ (Instr.vsts 0 1 0 1 3 2).wf = false := by decide +kernel
theorem test_wf_rcall : (Instr.rcall 0 1 15 2 3 false).wf = false ∧ (Instr.rread 0 1 4 13 3 false).wf = false := by decide +kernel
theorem test_wf_ok : (Instr.add 0 false 1 2 3).wf = true := by decide +kernel

/-! Words written out in the manual (chapters 03, 08, 10, 12, 15, 18-22) decode to their instructions. -/

theorem test_word_alu : decode 0x00622400 0 = .ok (.mulh 0 false false 1 1 2) ∧ decode 0x01393200 0 = .ok (.shl 0 false 12 9 9) ∧
    decode 0x06002400 0 = .ok (.clz 0 true 1 2) ∧ decode 0x02442A00 0 = .ok (.mad 0 false 2 1 5) ∧ decode 0x31E42800 0 = .ok (.sel 3 2 1 4) :=
  ⟨rfl, rfl, rfl, rfl, rfl⟩
theorem test_word_float : decode 0x0070CF20 0 = .ok (.fdiv 0 .f32 8 6 7) ∧ decode 0x00751128 0 = .ok (.cvt 0 .i64 .f32 8 8) ∧
    decode 0x00000402 0 = .ok (.pfx false false .rz) := ⟨rfl, rfl, rfl⟩
theorem test_word_atomic : decode 0x00228260 0 = .ok (.aadd 0 2 1 4 1) ∧ decode 0x00028254 0 = .ok (.sch 0 0 1 4 1) ∧
    decode 0x00028058 0 = .ok (.rrel 0 0 1 4) ∧ decode 0x03328413 8 = .ok (.acas 0 true 8 1 3 4 2) := ⟨rfl, rfl, rfl, rfl⟩
theorem test_word_control : decode 0x0FFF5890 0 = .ok (.loop 0 0x7FFA 12) ∧ decode 0x0002009C 0 = .ok (.trap 0 1) ∧
    decode 0x000000A4 0 = .ok (.yield 0) ∧ decode 0x000000A8 0 = .ok (.quit 0) := ⟨rfl, rfl, rfl, rfl⟩
theorem test_word_sync : decode 0x0001E0D8 0 = .ok (.fence 0 15) ∧ decode 0x0001E0D0 0 = .ok (.bara 0 15 0) ∧
    decode 0x0001E2D4 0 = .ok (.barw 0 15 1) ∧ decode 0x000080FC 0 = .ok (.wake 0 4) := ⟨rfl, rfl, rfl, rfl⟩
theorem test_word_bank : decode 0x0000B0F4 0 = .ok (.hovr 0 false 0 5 8) ∧ decode 0x001210F8 0 = .ok (.bqry 0 9 8) := ⟨rfl, rfl⟩
theorem test_word_system : decode 0x000008DC 0 = .ok (.time 0 4) ∧ decode 0x000002B8 0 = .ok (.sets 0 0 0 1) ∧
    decode 0x00008104 0 = .ok (.disarm 0 4) := ⟨rfl, rfl, rfl⟩
theorem test_word_vector : decode 0x0406244D 0 = .ok (.vshuf 0 .i32 false 0 3 1 2) ∧ decode 0x0C220441 0 = .ok (.vsel 0 .f32 1 1 0 2) ∧
    decode 0x01000685 0 = .ok (.vst 0 2 0 0 0 3) := ⟨rfl, rfl, rfl⟩
theorem test_word_matrix : decode 0x00200217 0x00000820 = .ok (.mmaLatch 0 0 true 0 1 1 false true) ∧
    decode 0x008080A9 0 = .ok (.mlatch 0 1 4 false) ∧ decode 0x000002AD 0 = .ok (.mpass 0 .east true) ∧
    decode 0x010120A5 0 = .ok (.msto 0 2 0 9 0) := ⟨rfl, rfl, rfl, rfl⟩
theorem test_word_copy : decode 0x018AC41F 0x2001E5F4 = .ok (.cpyb 0 3 5 6 2 (some ⟨4, 15⟩) (some ⟨2, 7⟩) 1) ∧
    decode 0x010AC227 0x400001F3 = .ok (.putr 0 2 5 6 1 (some ⟨3, 15⟩) none 2) := ⟨rfl, rfl⟩
theorem test_word_replay : decode 0x0064984F 1 = .ok (.rcall 0 3 2 4 12 true) ∧ decode 0x00049853 2 = .ok (.rread 0 0 2 4 12 true) ∧
    decode 0x00005857 0 = .ok (.rwait 0 2 12) ∧ decode 0x000CA83F 0xD0700030 = .ok (.sendt 0 6 5 4 0xD0700030) := ⟨rfl, rfl, rfl, rfl⟩

/-! Helpers: a machine whose current slot is slot 0 of core 0. -/

def here : SlotRef := { place := .mesh 0, k := 0 }

def mk (x : Slot) : State := { State.reset with fuses := [], slots := [(slotKey here, { x with status := .ready })], cur := here }

/-- A slot with g1 and g2. -/
def two (a b : Dword) : Slot := { g := [(1, a), (2, b)] }

/-- Core 0 holds a bank in window 0. -/
def banked (x : Slot) : State := { mk x with sites := [(0, { attach := [(0, { bank := 0, att := true, rd := true, wr := true })] })] }

/-- The current slot after an instruction. -/
def after (i : Instr) (s : State) : Slot := match exec i s with | .next t => t.slot s.cur | _ => {}

/-! Worked results of the manual. -/

theorem test_mad : (after (.mad 0 false 2 1 5) (mk { two 3 (-4) with g := [(1, 3), (2, -4), (5, 20)] })).getG 5 = 8 := by decide +kernel
theorem test_min_unsigned : (after (.min 0 true false 2 1 3) (mk (two (-1) 5))).getG 3 = 5 := by decide +kernel
theorem test_min_signed : (after (.min 0 false false 2 1 3) (mk (two (-1) 5))).getG 3 = -1 := by decide +kernel
theorem test_clz : (after (.clz 0 true 1 2) (mk (two 0x10000 0))).getG 2 = 15 := by decide +kernel
theorem test_popc : (after (.popc 0 false 1 2) (mk (two 0xFFFFFFFF000000FF 0))).getG 2 = 40 ∧
    (after (.popc 0 true 1 2) (mk (two 0xFFFFFFFF000000FF 0))).getG 2 = 8 := by decide +kernel
theorem test_acas_equal : (after (.acas 0 true 8 0 3 4 2) (banked { g := [(2, 0), (3, 9), (4, 64)] })).getQ 15 = true := by decide +kernel
theorem test_acas_differs : (after (.acas 0 true 8 0 3 4 2) (banked { g := [(2, 6), (3, 9), (4, 64)] })).getG 2 = 0 := by decide +kernel

/-! Hypotheses: arithmetic. -/

def m1 : State := mk (two 3 5)

theorem test_hyp_IntegerArithmetic : ∃ q d w v, Claims.exactResult m1.now (.add 0 false 2 1 3) = some (q, d, w, v) ∧
    m1.issues (.add 0 false 2 1 3) q = true := ⟨0, 3, false, 8, by decide +kernel, by decide +kernel⟩

theorem test_hyp_IntegerResults : (∃ q d v, Claims.bitResult m1.now (.shl 0 false 2 1 3) = some (q, d, v) ∧
    m1.issues (.shl 0 false 2 1 3) q = true) ∧ ∃ q d v, Claims.moveResult m1.now (.mov 0 1 3) = some (q, d, v) ∧
    m1.issues (.mov 0 1 3) q = true := ⟨⟨0, 3, 96, by decide +kernel, by decide +kernel⟩, 0, 3, 3, by decide +kernel, by decide +kernel⟩

theorem test_hyp_FieldResults : (∃ f, Claims.fieldResult m1.now (.ext 0 2 1 3) = some (0, 3, f) ∧ m1.issues (.ext 0 2 1 3) 0 = true) ∧
    (m1.issues (.ins 0 1 2 3) 0 = true ∧ fieldBad (((mk (two 0x10000000 0)).now).getG 1) = true) ∧
    ((mk (two 0x10000 0)).issues (.ins 0 1 2 3) 0 = true ∧ ((mk (two 0x10000 0)).now.getG 1).getLsbD 16 = true) :=
  ⟨⟨_, rfl, by decide +kernel⟩, by decide +kernel, by decide +kernel⟩

theorem test_hyp_Division : m1.issues (.div 0 false false 2 1 3) 0 = true ∧ m1.issues (.rem 0 true true 0 1 3) 0 = true := by decide +kernel

theorem test_hyp_Predicates : Claims.predicateResult m1.now (.cmp 0 false .lt 2 1 4) = some (0, 4, true) ∧
    m1.issues (.cmp 0 false .lt 2 1 4) 0 = true := by decide +kernel

/-- 1.5 and a signalling NaN in f32. -/
def mf : State := mk (two 0x3FC00000 0x7FA00000)

theorem test_hyp_FloatResults : (∃ v fl, Claims.floatResult mf.now (.fadd 0 .f32 1 1 3) = some (0, 3, v, fl) ∧
    mf.issues (.fadd 0 .f32 1 1 3) 0 = true ∧ mf.now.enabled fl = 0) ∧
    (mf.issues (.fcmp 0 .f32 .lt 2 1 4) 0 = true ∧ mf.now.enabled (fCmp .lt (fopVal mf.now .f32 1) (fopVal mf.now .f32 2)).2 = 0) :=
  ⟨⟨0x40400000, 0, by decide +kernel, by decide +kernel, by decide +kernel⟩, by decide +kernel⟩

/-- The same with every trap of TEN enabled. -/
def me : State := mk { two 0x3F800000 0 with ten := 0x7F, v := [(1, 1)] }

theorem test_hyp_FloatTraps : (∃ v fl, Claims.floatResult me.now (.fdiv 0 .f32 2 1 3) = some (0, 3, v, fl) ∧
    me.issues (.fdiv 0 .f32 2 1 3) 0 = true ∧ me.now.enabled fl ≠ 0) ∧
    ∃ l, Claims.laneResult me.now (.vrcp 0 .f32 false 0 2 3) = some l ∧ me.issues (.vrcp 0 .f32 false 0 2 3) l.q = true ∧
      me.now.enabled (Claims.laneFlags l.on l.f l.n) ≠ 0 :=
  ⟨⟨0x7F800000, 2, by decide +kernel, by decide +kernel, by decide +kernel⟩, _, rfl, by decide +kernel, by decide +kernel⟩

theorem test_hyp_VectorResults : (∃ l, Claims.laneResult m1.now (.vadd 0 .i8 false 0 1 2 3) = some l ∧ m1.issues (.vadd 0 .i8 false 0 1 2 3) l.q = true ∧
      m1.now.enabled (Claims.laneFlags l.on l.f l.n) = 0) ∧
    (m1.issues (.vexp2 0 .f32 false 0 1 2) 0 = true ∧
      m1.now.enabled (Claims.laneFlags (maskOn (m1.now.getM 0) 32) (fun j => (0, (fExp2 (vfmt .f32) 0 (m1.now.vval .f32 1 j)).2.1)) 16) = 0) :=
  ⟨⟨_, rfl, by decide +kernel, by decide +kernel⟩, by decide +kernel, by decide +kernel⟩

theorem test_hyp_VectorCompareAndReduce : m1.issues (.vcmp 0 .f32 .lt 1 2 1) 0 = true ∧ m1.issues (.vcmpN 0 .i8 .ge 1 2 7) 0 = true ∧
    m1.issues (.vred 0 .i16 0 .sum 1 3) 0 = true := by decide +kernel

theorem test_hyp_BlockCodes : m1.issues (.qscl 0 .bf16 .e4m3 2 3) 0 = true ∧ m1.issues (.qcvt 0 .bf16 .e5m2 2 3) 0 = true ∧
    m1.issues (.pxpk 0 2 3) 0 = true ∧ m1.issues (.pxun 0 2 3) 0 = true := by decide +kernel

/-! Hypotheses: latches and control. -/

/-- The lead of a row of two cores, streamed, with a word in its buffer. -/
def streamedSlot : Slot :=
  { g := [(1, 3), (2, 0x100)], streamed := true, rect := 0x00010000, buf := [{ off := 0, w := 0x98 }] }

/-- The second core of that row. -/
def follower (dec : Option Decision) : State :=
  { State.reset with
    slots := [(slotKey (meshSlot 1 0), { streamedSlot with status := .ready, buf := [{ off := 0, w := 0x98, dec := dec }] })]
    cur := meshSlot 1 0 }

theorem test_hyp_NeighbourLatches : m1.cur.place = .mesh 0 ∧ m1.issues (.nput 0 .east 3) 0 = true ∧ m1.issues (.nget 0 .west 3) 0 = true ∧
    ((mk { coming := [(1, [7])] }).slot (meshSlot 0 0)).onWay .west = [7] := by decide +kernel

theorem test_hyp_Jumps : (Claims.jumpResult m1.now (.br 0 (-2)) = some (0, 1, true, 0xFFF8, m1.now) ∧ m1.issues (.br 0 (-2)) 0 = true ∧
      m1.now.streamed = false) ∧
    (m1.issues (.jmpr 0 1) 0 = true ∧ m1.now.getQ 0 = true ∧ (m1.now.getG 1).toNat % 4 ≠ 0) ∧
    ((mk (two 0x10000 0)).issues (.jmpr 0 1) 0 = true ∧ 2 ^ 16 ≤ ((mk (two 0x10000 0)).now.getG 1).toNat) ∧
    (Claims.jumpResult (mk streamedSlot).now (.jmpr 0 2) = some (0, 1, true, 0x100, (mk streamedSlot).now) ∧
      (mk streamedSlot).issues (.jmpr 0 2) 0 = true ∧ leads (mk streamedSlot).now (mk streamedSlot).cur.place = true ∧
      ((mk streamedSlot).now.getG 2).toNat % 4 = 0) ∧
    (Claims.jumpResult (follower none).now (.br 0 1) = some (0, 1, true, 4, (follower none).now) ∧ (follower none).issues (.br 0 1) 0 = true ∧
      leads (follower none).now (follower none).cur.place = false ∧ (follower none).now.buf = [{ off := 0, w := 0x98 }]) ∧
    (follower (some ⟨true, 4⟩)).issues (.loop 0 1 1) 0 = true :=
  ⟨⟨rfl, by decide +kernel⟩, by decide +kernel, by decide +kernel, ⟨rfl, by decide +kernel⟩, ⟨rfl, by decide +kernel⟩, by decide +kernel⟩

/-- A slot with three frames, whose stack has room for one more. -/
def deep : Slot := { frames := [List.replicate 8 1, List.replicate 8 2, List.replicate 8 3], depth := 3, wlim := 64, g := [(15, 8)] }

theorem test_hyp_CallsAndWindows : (m1.issues (.call 0 3) 0 = true ∧ m1.now.streamed = false) ∧
    ((mk deep).issues (.ret 0) 0 = true ∧ (mk deep).now.method = none) ∧ (mk { depth := 1, spilled := 1 }).issues (.ret 0) 0 = true ∧
    (((mk deep).slot here).frames.length = 3 ∧ ((mk deep).slot here).wsp.toNat + 64 ≤ ((mk deep).slot here).wlim.toNat ∧
      ((mk deep).slot here).frames.getLast? = some (List.replicate 8 3)) ∧
    (((mk { depth := 1, spilled := 1, wsp := 64 }).slot here).frames = [] ∧ ((mk { depth := 1, spilled := 1 }).slot here).spilled ≠ 0) := by
  decide +kernel

theorem test_hyp_SimpleControl : m1.issues (.nop 0) 0 = true ∧ m1.issues (.trap 0 2047) 0 = true ∧
    (mk { tinfo := 0x40000000, tepc := 8 }).issues (.tret 0) 0 = true ∧ (m1.slot m1.cur).capturing = none := by decide +kernel

theorem test_hyp_VoteLocally : m1.issues (.vote 0 true 1 2) 0 = true ∧ m1.now.streamed = false := by decide +kernel

theorem test_hyp_PrefixWords : (0x00000A02 : Word).extractLsb' 0 2 = 2 ∧ (0x00003802 : Word).extractLsb' 0 2 = 2 ∧
    (m1.slot m1.cur).pre = none ∧ (m1.slot m1.cur).streamed = false ∧ ((mk { pre := some ⟨0, false, false, .rz⟩ }).slot here).pre ≠ none := by
  decide +kernel

/-- RPT at 0 of one NOP-free frame: ADDI g1, g1, 1 at 4. -/
def framed : State := (m1.setBytes (storeKey 0 4) (bytesOfWord 0x00022204))

theorem test_hyp_RepeatFrames : (framed.issues (.rpt 0 0 1 0) 0 = true ∧ framed.now.streamed = false ∧
      (match framed.begun.capture framed.cur 1 4 with | .words ws n => ws.length == 1 && n == 8 | _ => false) = true) ∧
    ((mk streamedSlot).issues (.rpt 0 0 1 0) 0 = true ∧ (mk streamedSlot).now.streamed = true ∧ (mk streamedSlot).now.hold = 0) := by
  decide +kernel

/-! Hypotheses: accesses. -/

/-- A slot with addresses in g1 and g2, and a vector. -/
def reader : Slot := { g := [(1, 64), (2, 5)], v := [(3, 7)] }

def b0 : State := banked reader

/-- Core 0's window 1 is empty in fault mode, 2 is in claim, 3 in LAND; s1 is a segment of this device and s2 of another. -/
def b1 : State :=
  { mk { reader with segs := [(1, 0x1000 + 16 * 2 ^ 64 + 2 ^ 96 + 2 ^ 97 + 2 ^ 99), (2, 5 * 2 ^ 48 + 16 * 2 ^ 64 + 2 ^ 96 + 2 ^ 99)] } with
    sites := [(0, { attach := [(0, { att := true, rd := true }), (1, { fault := true }), (2, { clm := true }), (3, { att := true, land := true })] })] }

theorem test_hyp_AccessOutcomes : (here.place = .mesh 0 ∧ (2 : Nat) ^ 20 < (0xFFFFF : Dword).toNat + 2 ∧ (0xFFFFE : Dword).toNat + 2 ≤ 2 ^ 20 ∧
      (b1.entry 0 0).att = true ∧ (b1.entry 0 0).land = false ∧ b1.handing 0 0 = false ∧ (b1.entry 0 0).rd = true ∧ (b1.entry 0 0).wr = false ∧
      (b1.entry 0 1).fault = true ∧ (b1.entry 0 2).clm = true ∧ (b1.entry 0 3).land = true ∧ (b1.entry 0 4).att = false ∧
      (b1.entry 0 4).fault = false) ∧
    (segOk ((b1.slot here).getS 1) 1024 8 .load = false ∧ segOk ((b1.slot here).getS 1) 1016 8 .store = true ∧
      ((b1.slot here).getS 1).extractLsb' 48 16 = 0 ∧ ((b1.slot here).getS 1).getLsbD 100 = false ∧
      segOk ((b1.slot here).getS 2) 0 8 .load = true ∧ ((b1.slot here).getS 2).extractLsb' 48 16 ≠ 0) := by decide +kernel

/-- The part of 8 bytes at address 64 of window 0. -/
def part8 : Part := { pos := 0, n := 8, spot := .run (bankKey 0 64) 0, addr := 64 }

/-- What is left to show that parts are performed, once no stage has failed. -/
theorem performed_of (s : State) (ps : List Part) (store : Bool) (h : s.now.stage = .fresh) (h1 : ps.all fun p => p.piece.isSome)
    (h2 : relaxedHere s.cur s.now = false) (h3 : s.now.unperformed (piecesOf ps) = false)
    (h4 : s.begun.queuedStores (dieOf s.cur.place) (piecesOf ps) = false)
    (h5 : (piecesOf ps).all fun k => !if store then s.begun.storeBad false (piecesOf ps) k else s.begun.piecePoisoned k) :
    Claims.performed s ps store := by
  refine ⟨by simpa using h1, h2, fun va => by simp [h], fun b => by simp [h], h3, fun _ => h4, ?_⟩
  intro k hk
  have := List.all_eq_true.mp h5 k hk
  cases store <;> simpa using this

theorem test_hyp_Loads : (Claims.loadOf b0 (.ldI64 0 0 0 1 4) = some (0, 0, Claims.one 64 8, .g 4 8 true) ∧
      b0.issues (.ldI64 0 0 0 1 4) 0 = true ∧ (piecesOf [part8]).all (fun p => !b0.begun.foreign p)) ∧
    (∃ ps, b0.begun.places b0.cur 0 .load (Claims.one 64 8) = .ok ps ∧ Claims.performed b0 ps false) :=
  ⟨⟨rfl, by decide +kernel, by decide +kernel⟩, [part8], rfl,
    performed_of _ _ _ rfl (by decide +kernel) (by decide +kernel) (by decide +kernel) (by decide +kernel) (by decide +kernel)⟩

theorem test_hyp_Stores : ∃ v, Claims.storeOf b0 (.st 0 3 0 0 1 2) = some (0, 0, Claims.one 64 8, v, -1) ∧ b0.issues (.st 0 3 0 0 1 2) 0 = true ∧
    b0.begun.places b0.cur 0 .store (Claims.one 64 8) = .ok [part8] ∧ Claims.performed b0 [part8] true ∧ b0.now.method = none :=
  ⟨5, rfl, by decide +kernel, rfl,
    performed_of _ _ _ rfl (by decide +kernel) (by decide +kernel) (by decide +kernel) (by decide +kernel) (by decide +kernel), rfl⟩

theorem test_hyp_AccessStops : (Claims.loadOf m1 (.ldI64 0 0 0 0 4) = some (0, 0, Claims.one 0 8, .g 4 8 true) ∧ m1.issues (.ldI64 0 0 0 0 4) 0 = true ∧
      m1.now.stage = .fresh ∧ m1.begun.places m1.cur 0 .load (Claims.one 0 8) = .park (.window 0)) ∧
    ((∃ t, shapedWants m1.now (m1.begun.shape (placeKey m1.cur.place) 0) 0 0 1 = .inr t) ∧ m1.issues (.vlds 0 0 0 0 1 2) 0 = true ∧
      m1.issues (.vsts 0 0 0 0 1 2) 0 = true) ∧
    ((match indexedWants (mk (two (-8) 0)).now .i64 0 1 2 with | .inr _ => true | _ => false) = true ∧ (mk (two (-8) 0)).issues (.vgth 0 .i64 false 0 1 2 3) 0 = true ∧
      indexedBefore (mk (two (-8) 0)).now .i64 0 1 2 = []) :=
  ⟨⟨rfl, by decide +kernel, rfl, rfl⟩, ⟨⟨_, rfl⟩, by decide +kernel, by decide +kernel⟩, by decide +kernel, by decide +kernel, by decide +kernel⟩

/-- A slot with s1 over the first bytes of DRAM, in its die's TLB; the interposer loses the packets of its next access. -/
def lossy (reply : Bool) : State :=
  { mk { reader with stage := .lost reply, segs := [(1, 16 * 2 ^ 64 + 2 ^ 96 + 2 ^ 97 + 2 ^ 99)] } with dies := [(0, { tlb := [⟨0, 0, 0x3F⟩] })] }

/-- Its access at g1. -/
def lossyPart (s : State) : Part := match s.begun.places s.cur 1 .store (Claims.one 64 8) with
  | .ok [p] => p
  | _ => part8

theorem test_hyp_AccessLost (b : Bool) : Claims.loadOf (lossy b) (.ldI64 0 0 1 1 4) = some (0, 1, Claims.one 64 8, .g 4 8 true) ∧
    Claims.storeOf (lossy b) (.st 0 3 0 1 1 2) = some (0, 1, Claims.one 64 8, 5, -1) ∧
    (lossy b).issues (.ldI64 0 0 1 1 4) 0 = true ∧ (lossy b).issues (.st 0 3 0 1 1 2) 0 = true ∧ (lossy b).now.stage = .lost b ∧
    (match (lossy b).begun.places (lossy b).cur 1 .load (Claims.one 64 8) with | .ok ps => ps == [lossyPart (lossy b)] | _ => false) = true ∧
    (match (lossy b).begun.places (lossy b).cur 1 .store (Claims.one 64 8) with | .ok ps => ps == [lossyPart (lossy b)] | _ => false) = true ∧
    relaxedHere (lossy b).cur (lossy b).now = false ∧ (lossyPart (lossy b)).piece.isSome ∧
    (lossy b).now.unperformed (piecesOf [lossyPart (lossy b)]) = false ∧
    (lossy b).begun.queuedStores (dieOf (lossy b).cur.place) (piecesOf [lossyPart (lossy b)]) = false ∧
    Claims.crossing (lossy b) [lossyPart (lossy b)] = some (lossyPart (lossy b)) := by
  cases b <;> exact ⟨rfl, rfl, by decide +kernel⟩

theorem test_hyp_ShapeSlots : b0.issues (.shld 0 3 0 0 1) 0 = true ∧ (∃ ps, b0.begun.places b0.cur 0 .load (Claims.one 64 32) = .ok ps ∧
      Claims.performed b0 ps false) ∧ b0.issues (.shev 0 31) 0 = true :=
  ⟨by decide +kernel, ⟨[{ pos := 0, n := 32, spot := .run (bankKey 0 64) 0, addr := 64 }], rfl,
    performed_of _ _ _ rfl (by decide +kernel) (by decide +kernel) (by decide +kernel) (by decide +kernel) (by decide +kernel)⟩, by decide +kernel⟩

/-! Hypotheses: atomics, reservations, synchronisation. -/

/-- The word at address 64 of window 0 has a line of n slots. -/
def lined (n : Nat) : State := { banked reader with resv := [(bankKey 0 64, List.replicate n (meshSlot 1 0))] }

/-- A reservation of the word at address 64 of window 0, held or awaited. -/
def line8 (held : Bool) : Resv := { key := bankKey 0 64, held := held, atomic := false, piece := ⟨0, bankKey 0 64, 8, 0⟩ }

theorem test_hyp_Atomics : ((∃ f, Claims.atomOf b0.now (.aadd 0 0 0 1 2) = some (0, 0, 64, 8, 2, f)) ∧ b0.issues (.aadd 0 0 0 1 2) 0 = true ∧
      b0.now.stage = .fresh ∧ b0.now.resv = none ∧ b0.begun.look b0.cur 0 64 8 .atomic 8 = .at (.run (bankKey 0 64) 0) ∧
      b0.poisoned (bankKey 0 64) = false ∧ b0.foreign ⟨0, bankKey 0 64, 8, 0⟩ = false ∧ b0.now.drained 0 = true ∧
      b0.begun.queuedStores (dieOf b0.cur.place) [⟨0, bankKey 0 64, 8, 0⟩] = false ∧ tget [] b0.resv (bankKey 0 64 / 8 * 8) = [] ∧
      bankKey 0 64 % 8 = 0) ∧
    (b0.issues (.lrw 0 0 0 0 2) 0 = true ∧ m1.begun.look m1.cur 0 1 8 .atomic 8 = .trap cSEGV 1 ∧
      m1.begun.look m1.cur 0 0 8 .atomic 8 = .park (.window 0) ∧ (b1.modSite 0 fun y => { y with attach := [(0, { att := true, rd := true })] }).begun.look here 0 0 8 .atomic 8 = .denied 0) ∧
    ((banked { reader with resv := some (line8 true) }).issues (.aadd 0 0 0 1 2) 0 = true ∧
      (banked { reader with resv := some (line8 true) }).now.resv ≠ none) ∧
    ((lined 65).issues (.aadd 0 0 0 1 2) 0 = true ∧ 64 < (tget [] (lined 65).resv (bankKey 0 64 / 8 * 8)).length) ∧
    ((lined 64).issues (.aadd 0 0 0 1 2) 0 = true ∧ (tget [] (lined 64).resv (bankKey 0 64 / 8 * 8)).length = 64) ∧
    (({ b0 with poison := [(bankKey 0 64, true)] } : State).issues (.aadd 0 0 0 1 2) 0 = true ∧
      ({ b0 with poison := [(bankKey 0 64, true)] } : State).begun.piecePoisoned ⟨0, bankKey 0 64, 8, 0⟩ = true) :=
  ⟨⟨⟨_, rfl⟩, by decide +kernel⟩, by decide +kernel, by decide +kernel, by decide +kernel, by decide +kernel, by decide +kernel⟩

theorem test_hyp_AtomicLost (b : Bool) : (∃ f, Claims.atomOf (lossy b).now (.aadd 0 0 1 1 2) = some (0, 1, 64, 8, 2, f)) ∧
    (lossy b).issues (.aadd 0 0 1 1 2) 0 = true ∧ (lossy b).now.stage = .lost b ∧ (lossy b).now.resv = none ∧
    (match (lossy b).begun.look (lossy b).cur 1 64 8 .atomic 8 with
      | .at (.run k tag) => (lossy b).poisoned k == false && !(lossy b).foreign ⟨0, k, 8, tag⟩ && (lossy b).now.drained 1 && k % 8 == 0 &&
        !(lossy b).begun.queuedStores (some 0) [⟨0, k, 8, tag⟩] && isDram k &&
        Claims.crossing (lossy b) [{ pos := 0, n := 8, spot := .run k tag, addr := (lossy b).begun.faultAddr (lossy b).cur 1 64 }] != none
      | _ => false) = true := by
  cases b <;> exact ⟨⟨_, rfl⟩, by decide +kernel⟩

/-- The slot holds the word at address 64 of window 0. -/
def holder : State := { banked { reader with resv := some (line8 true) } with resv := [(bankKey 0 64, [here])] }

/-- It waits in line for that word. -/
def waiter : State := { banked { reader with resv := some (line8 false) } with resv := [(bankKey 0 64, [here])] }

theorem test_hyp_Reservations : (b0.issues (.lrw 0 0 0 1 2) 0 = true ∧ b0.now.stage = .fresh ∧ b0.now.resv = none ∧
      b0.begun.look b0.cur 0 64 8 .atomic 8 = .at (.run (bankKey 0 64) 0) ∧ tget [] b0.resv (bankKey 0 64) = []) ∧
    (b0.issues (.sch 0 0 0 1 2) 0 = true ∧ b0.issues (.rrel 0 0 0 1) 0 = true) ∧
    (holder.issues (.sch 0 0 0 1 2) 0 = true ∧ holder.now.resv = some (line8 true) ∧ (line8 true).key = bankKey 0 64 ∧
      holder.begun.look holder.cur 0 64 8 .atomic 8 = .at (.run (bankKey 0 64) 0) ∧ holder.now.drained 0 = true) ∧
    (holder.issues (.rrel 0 1 0 1) 0 = true ∧ holder.begun.look holder.cur 0 72 8 .atomic 8 = .at (.run (bankKey 0 72) 0) ∧
      bankKey 0 64 ≠ bankKey 0 72) ∧
    (tget [] waiter.resv (bankKey 0 64) = [here] ∧ (waiter.slot here).resv = some (line8 false)) ∧
    (holder.slot here).resv = some (line8 true) := by decide +kernel

/-- A relaxed access of n bytes at a place of memory, under way. -/
def underway (store : Bool) (key n : Nat) (arrived : Bool) : Relaxed :=
  { id := 1, tepc := 0, va := 64, store := store, dest := if store then .none else .g 4 8 true, pieces := [⟨0, key, n, 0⟩]
    data := List.replicate n 0, arrived := arrived, away := 0, port := false }

/-- The slot with that access, and the place poisoned or not. -/
def relaxing (a : Relaxed) (bad : Bool) : State :=
  { mk { relaxed := [a] } with poison := if bad then a.pieces.map fun p => (p.key, true) else [] }

/-- Whether the access has still to be performed and none of the slot stands before it. -/
def unmade (a : Relaxed) (bad : Bool) : Bool :=
  ((relaxing a bad).slot here).relaxedBy 1 == some a && !a.arrived && !((relaxing a bad).slot here).behind a

/-- A store of n bytes in an egress queue, to byte k of DRAM, that has left or not. -/
def queuedStore (id k n : Nat) (gone : Bool) : Egress :=
  { slot := here, id := id, acct := 0, port := false, pieces := [⟨0, k, n, 0⟩], data := List.replicate n 0, gone := gone }

/-- Two stores of n bytes in die 0's egress queue, the first of which has left, the second at byte k of DRAM, which is poisoned or not. -/
def leaving (k n : Nat) (bad gone : Bool) : State :=
  { mk { relaxed := [underway true 0 n true] } with
    poison := if bad then [(k / 64 * 64, true)] else []
    dies := [(0, { egress := [queuedStore 2 0 8 true, queuedStore 1 k n gone] })] }

theorem test_hyp_RelaxedAccesses :
    (unmade (underway false (bankKey 0 64) 8 false) false = true ∧
      (relaxing (underway false (bankKey 0 64) 8 false) false).poisonSeen (some 0) [⟨0, bankKey 0 64, 8, 0⟩] = []) ∧
    (unmade (underway false (bankKey 0 64) 8 false) true = true ∧
      (relaxing (underway false (bankKey 0 64) 8 false) true).poisonSeen (some 0) [⟨0, bankKey 0 64, 8, 0⟩] ≠ []) ∧
    (unmade (underway true (bankKey 0 64) 8 false) false = true ∧ isDram (bankKey 0 64) = false ∧
      (relaxing (underway true (bankKey 0 64) 8 false) false).relaxedPoisoned (some 0) false [⟨0, bankKey 0 64, 8, 0⟩] = false) ∧
    (unmade (underway true (bankKey 0 64) 4 false) true = true ∧
      (relaxing (underway true (bankKey 0 64) 4 false) true).relaxedPoisoned (some 0) false [⟨0, bankKey 0 64, 4, 0⟩] = true) ∧
    (unmade (underway true 0 8 false) false = true ∧ isDram 0 = true ∧ dieOf here.place = some 0 ∧
      (relaxing (underway true 0 8 false) false).relaxedPoisoned (some 0) false [⟨0, 0, 8, 0⟩] = false) ∧
    (((relaxing (underway false (bankKey 0 64) 8 true) false).slot here).relaxedBy 1 = some (underway false (bankKey 0 64) 8 true) ∧
      (underway false (bankKey 0 64) 8 true).away = 0) ∧
    (mayLeave ((leaving 4 8 false false).die 0).egress 1 = false ∧ mayLeave ((leaving 4 8 false false).die 0).egress 0 = false) ∧
    ((leaving 128 8 false true).goneStore here 1 = some (0, queuedStore 1 128 8 true) ∧
      (leaving 128 8 false true).storeBad false [⟨0, 128, 8, 0⟩] ⟨0, 128, 8, 0⟩ = false ∧
      (leaving 128 8 true true).storeBad false [⟨0, 128, 8, 0⟩] ⟨0, 128, 8, 0⟩ = true ∧
      ((leaving 128 8 true true).slot here).relaxedBy 1 = some (underway true 0 8 true) ∧ ((leaving 128 8 true true).slot here).status ≠ .free) := by
  decide +kernel

theorem test_hyp_EgressQueue : Claims.canLeave ((leaving 128 8 false false).die 0).egress 1 (queuedStore 1 128 8 false) ∧
    (∀ e, ¬ Claims.canLeave ((leaving 128 8 false false).die 0).egress 2 e) ∧ (∀ e, ¬ Claims.canLeave ((leaving 128 8 false false).die 0).egress 0 e) ∧
    ∀ i e, ¬ Claims.canLeave ((mk {}).die 0).egress i e :=
  ⟨⟨rfl, rfl, by decide +kernel⟩, fun _ h => (nomatch h.1), fun e h => by
    obtain rfl : queuedStore 2 0 8 true = e := Option.some.inj h.1
    exact (nomatch h.2.1), fun _ _ h => (nomatch h.1)⟩

/-- A launch of turnstile 1, owner 0, on core 0. -/
def desc0 : Desc :=
  { owner := 0, acct := 0, cls := 0, gate := 0, storePA := 0, streamVA := 0, streamLen := 0, logPA := 0, logN := 4, payPA := 0, payVA := 0
    segPA := 0, bankPA := 0, ctxPA := 0, launched := 1, streamed := 0, roles := 0, slots := [] }

/-- A machine whose core 0 holds that launch, with what its site holds. -/
def launched (x : Slot) (y : Site) : State :=
  { mk x with
    sites := [(0, { y with launch := some 1 })]
    turnstiles := [(1, { state := 2, desc := some desc0, ctx := some { loaded := true, unloaded := false } })] }

/-- Something that slot 0 of core 0 has under way to a core, for a context. -/
def toward (c : Nat) (kind : SentKind) (tgt : Option Nat) : Sent :=
  { id := 1, slot := here, dst := c, kind := kind, tepc := 0, owner := 0, tgt := tgt }

/-- That launch, taken out. -/
def taken (es : List Sent) : State :=
  { mk {} with turnstiles := [(1, { state := 2, desc := some desc0, ctx := some { loaded := false, unloaded := false } })], sends := es }

/-- The slot of core 0 with number k waits on something, before any other slot. -/
def waitsAt (k : Nat) (p : Park) : State :=
  { launched {} {} with slots := [(slotKey here, { status := .ready, g := [(1, 7)] }), (slotKey (meshSlot 0 k), { status := .parked p })] }

theorem firstOf_alone {s : State} {p : Nat} {r : SlotRef} {k : Park} {f : Park → Prop} (h : (s.slot r).status = .parked k) (hf : f k)
    (hr : r ∈ slotsAt p) (ho : ∀ u ∈ slotsAt p, u = r ∨ ∀ k, (s.slot u).status ≠ .parked k) : Claims.firstOf s p r f :=
  ⟨⟨k, h, hf⟩, hr, fun u hu j hj _ => (ho u hu).imp id fun n => absurd hj (n j)⟩

/-- Whether every slot of core 0 but one is not parked. -/
def unparked (s : State) (r : SlotRef) : Bool :=
  (slotsAt 0).all fun u => u == r || match (s.slot u).status with | .parked _ => false | _ => true

theorem unparked_of {s : State} {r : SlotRef} (h : unparked s r = true) : ∀ u ∈ slotsAt 0, u = r ∨ ∀ k, (s.slot u).status ≠ .parked k := by
  intro u hu
  have := List.all_eq_true.mp h u hu
  rcases Bool.or_eq_true _ _ ▸ this with e | e
  · exact .inl (eq_of_beq e)
  · exact .inr fun k hk => by simp [hk] at e

theorem test_hyp_Semaphores : (m1.now.status = .ready ∧ m1.issues (.sadd 0 1 15) 0 = true ∧ m1.issues (.sset 0 1 0) 0 = true) ∧
    m1.issues (.swait 0 1 3) 0 = true ∧
    (m1.issues (.saddLong 0 2 1 15) 0 = true ∧ (m1.now.getG 1).toNat < 2 ^ 13 ∧ m1.now.drained 1 = true) ∧
    (Claims.waitMet (waitsAt 1 (.swait 15 3)) 0 15 ⟨3, false⟩ (meshSlot 0 1) ∧
      ((waitsAt 1 (.swait 15 4)).slot (meshSlot 0 1)).status = .parked (.swait 15 4)) ∧
    ((launched {} {}).sends = [] ∧ (launched {} {}).semTarget 0 none = .site) ∧
    ((taken [toward 0 (.signal (.add 1) 3) (some 1)]).semTarget 0 (some (toward 0 (.signal (.add 1) 3) (some 1))) = .log 1) ∧
    (({ m1 with sends := [toward 0 (.sem (.add 1) 3) none] } : State).semTarget 0 (some (toward 0 (.sem (.add 1) 3) none)) = .drop) :=
  ⟨by decide +kernel, by decide +kernel, by decide +kernel, ⟨⟨rfl, _, rfl, by decide⟩, rfl⟩, by decide +kernel, by decide +kernel, by decide +kernel⟩

/-- A message of slot 0 of core 0. -/
def note : Message := { header := 1, payload := 7 }

theorem test_hyp_Mailboxes : (m1.issues (.recv 0 0x8001 7) 0 = true ∧ m1.now.status = .ready ∧ (m1.site 0).mail 0 = []) ∧
    ((launched {} { mb := [(15, [note])] }).issues (.recv 0 0x8000 7) 0 = true ∧
      ((launched {} { mb := [(15, [note])] }).site 0).mail 15 = [note] ∧ ((launched {} { mb := [(15, [note])] }).site 0).waiting 15 = [] ∧
      (launched {} { mb := [(15, [note])] }).mailLogged 0 15 = none) ∧
    ((launched {} {}).messageTarget 0 0 3 note none = .site ∧ (launched {} {}).mailWaits 0 3 note = false ∧ (launched {} {}).mailLogged 0 3 = none ∧
      unparked (launched {} {}) here = true) ∧
    (let s := waitsAt 1 (.recv 0x0008 2);
      s.messageTarget 0 0 3 note none = .site ∧ s.mailWaits 0 3 note = false ∧ s.mailLogged 0 3 = none ∧ (s.site 0).mail 3 = []) ∧
    Claims.firstOf (waitsAt 1 (.recv 0x0008 2)) 0 (meshSlot 0 1) (fun k => ∃ m p, k = .recv m p ∧ m.getLsbD 3 = true) ∧
    ((launched {} { mb := [(3, List.replicate 8 note)] }).messageTarget 0 0 3 note none = .site ∧
      (launched {} { mb := [(3, List.replicate 8 note)] }).mailWaits 0 3 note = true ∧ note.header.extractLsb' 0 8 ≠ 0x0A) ∧
    (let s := launched {} { mb := [(3, List.replicate 8 note)], mbWait := [(3, [note])] };
      (s.site 0).waiting 3 = [note] ∧ s.loadedOn 0 = some 1 ∧ s.noticeHeld 0 note = false ∧ 8 ≤ ((s.site 0).mail 3).length) ∧
    (let n : Message := { header := 3, payload := 0 };
      let s := { launched {} { mb := [(3, List.replicate 8 note)], mbWait := [(3, [n, note])] } with
        sends := [toward 0 .mail none, { toward 0 (.notice 3 n) none with id := 2 }] };
      (s.site 0).waiting 3 = [n] ++ note :: [] ∧ s.noticeHeld 0 n = true ∧ s.noticeHeld 0 note = false) ∧
    (let s : State := { m1 with sends := [toward 1 .mail none] };
      s.messageTarget 1 0 3 note (some here) = .drop ∧ s.sentMail 1 here = some (toward 1 .mail none)) ∧
    ((taken [toward 0 .mail none]).messageTarget 0 0 3 note (some here) = .log 1 ∧
      (taken [toward 0 .mail none]).sentMail 0 here = some (toward 0 .mail none)) ∧
    ((launched {} {}).loadedOn 0 = some 1 ∧ ({ log := [mailItem 0 3 note] } : Context).logged 0 3 = some (mailItem 0 3 note) ∧
      (mailItem 0 3 note).delivery = 1 ∧ (((launched {} {}).site 0).mail 3).length < 8) :=
  ⟨by decide +kernel, by decide +kernel, by decide +kernel, by decide +kernel,
    firstOf_alone rfl ⟨_, _, rfl, by decide⟩ (by decide +kernel) (unparked_of (by decide +kernel)), by decide +kernel, by decide +kernel,
    by decide +kernel, by decide +kernel, by decide +kernel, by decide +kernel⟩

theorem test_hyp_SlotQueues : (m1.issues (.push 0 3 1) 0 = true ∧ ((m1.site 0).queue 3).length < 8 ∧ unparked m1 here = true) ∧
    ((launched {} { w := [(3, List.replicate 8 0)] }).issues (.push 0 3 1) 0 = true ∧
      8 ≤ (((launched {} { w := [(3, List.replicate 8 0)] }).site 0).queue 3).length) ∧
    (let s := waitsAt 1 (.pop 3 6);
      s.issues (.push 0 3 1) 0 = true ∧ (s.site 0).queue 3 = [] ∧ slotKey (meshSlot 0 1) ≠ slotKey s.cur ∧ s.now.status = .ready) ∧
    Claims.firstOf (waitsAt 1 (.pop 3 6)) 0 (meshSlot 0 1) (fun k => ∃ e, k = .pop 3 e) ∧
    (m1.issues (.pop 0 6 1) 0 = true ∧ m1.now.status = .ready) :=
  ⟨by decide +kernel, by decide +kernel, by decide +kernel,
    firstOf_alone rfl ⟨_, rfl⟩ (by decide +kernel) (unparked_of (by decide +kernel)), by decide +kernel⟩

/-- Slot 0 of core 0 with a launch rectangle of itself, that has arrived at a phase. -/
def alone : Slot := { g := [(1, 0)], bars := [(1, { a := 1, f := 0, rect := 0 })] }

/-- Cores 0 and 1 hold a launch; the arrival of core 0 is counted, or not, and that of core 1 is on its way. -/
def pairUp (first : Bool) : State :=
  { launched alone { arrived := if first then [{ k := 0, id := 1, rect := 0x10000, live := true }] else [] } with
    sites := [(0, { launch := some 1, arrived := if first then [{ k := 0, id := 1, rect := 0x10000, live := true }] else [] }), (1, { launch := some 1 })]
    barSends := [{ core := 1, k := 0, id := 1, rect := 0x10000, ctx := some 1 }] }

theorem test_hyp_Barriers : (here.place = .mesh 0 ∧ (mk alone).issues (.bara 0 1 1) 0 = true ∧ barScope here (mk alone).now 1 1 = some 0) ∧
    (mk alone).issues (.barw 0 1 1) 0 = true ∧
    (barScope here m1.now 1 2 = none ∧ m1.issues (.bara 0 2 1) 0 = true ∧ m1.issues (.barw 0 2 1) 0 = true) ∧
    m1.issues (.fence 0 0) 0 = true ∧
    (let b : BarSent := { core := 1, k := 0, id := 1, rect := 0x10000, ctx := some 1 };
      let v (first : Bool) := ({ pairUp first with barSends := [] } : State).modSite 1 fun y =>
        { y with arrived := y.arrived ++ [{ k := 0, id := 1, rect := 0x10000, live := true }] };
      rectCores 0x10000 = [0, 1] ∧ (pairUp true).barSends.find? (fun b => b.core == 1 && b.k == 0 && b.id == 1 && b.rect == 0x10000) = some b ∧
      (pairUp true).loadedOn 1 = some 1 ∧ (v true).phaseFull 0 1 0x10000 = true ∧ (v false).phaseFull 0 1 0x10000 = false ∧
      (v true).counted 0 0 1 0x10000 = some { k := 0, id := 1, rect := 0x10000, live := true } ∧ m1.loadedOn 0 ≠ some 1 ∧ m1.ctx 1 = none) ∧
    ((taken []).loadedOn 0 ≠ some 1 ∧ ((taken []).ctx 1).isSome = true) := by
  decide +kernel

/-- A request of slot 0 of core 0 to device 5. -/
def asking (w : ReqFor) : Request :=
  { id := 9, group := 4, slot := here, tepc := 0, words := 1, addr := 64, pos := 0, n := 8, got := none, what := w, dev := 5 }

/-- Device 5 is behind port 0, which is up. -/
def linked (qs : List Request) : Iod := { devt := [(0, 5 + 2 ^ 16)], ports := [(0, { state := 2 })], requests := qs }

/-- A SENDT of n bytes of window 0 to a device. -/
def telling (d n : Dword) (qs : List Request) : State := { banked { g := [(1, n), (2, d)] } with iod := linked qs }

/-- Whether its bytes are found, and none is poisoned. -/
def tells (s : State) (n : Nat) : Bool := match s.begun.places here 0 .load (payloadWants 0 n) with
  | .ok ps => (ps.all fun p => p.piece.isSome) && (piecesOf ps).all fun p => !s.begun.piecePoisoned p && !s.begun.foreign p
  | _ => false

theorem test_hyp_Sending : (m1.issues (.send 0 false 15 2 1 9 true) 0 = true ∧ (m1.now.getG 1).toNat < 2 ^ 13 ∧ m1.now.drained 0 = true ∧
      (m1.site 0).outbound.length < 8) ∧
    ((mk (two 0x2000 0)).issues (.send 0 false 0 2 1 0 false) 0 = true ∧ 2 ^ 13 ≤ ((mk (two 0x2000 0)).now.getG 1).toNat) ∧
    ((mk (two 241 0)).issues (.sendt 0 1 2 2 0) 0 = true ∧ 240 < ((mk (two 241 0)).now.getG 1).toNat) ∧
    ((telling 0 240 []).issues (.sendt 0 1 3 2 0) 0 = true ∧ ((telling 0 240 []).now.getG 1).toNat ≤ 240 ∧ tells (telling 0 240 []) 240 = true) ∧
    ((telling 5 240 []).issues (.sendt 0 1 3 2 0) 0 = true ∧ tells (telling 5 240 []) 240 = true ∧ (telling 5 240 []).iod.route 5 = some 0 ∧
      (telling 5 240 []).iod.portUp 0 = true ∧ (telling 5 240 []).begun.sendtOut here 5 = false ∧ (5 : Nat) ≠ (telling 5 240 []).iod.devid.toNat % 2 ^ 16) ∧
    ((telling 5 240 [asking .sendt]).issues (.sendt 0 1 3 2 0) 0 = true ∧ tells (telling 5 240 [asking .sendt]) 240 = true ∧
      (telling 5 240 [asking .sendt]).begun.sendtOut here 5 = true) ∧
    (let s : State := { launched {} { outbound := [⟨1, 0, 3, note, false, 0⟩] } with sends := [toward 0 .mail none] };
      (s.site 0).outbound = [⟨1, 0, 3, note, false, 0⟩] ∧ (s.router 0).inject = [] ∧ s.heldBack 1 = false ∧
      s.sends.find? (fun e => e.id == 1) = some (toward 0 .mail none)) := by decide +kernel

/-! Hypotheses: banks. -/

theorem test_hyp_AttachAndDetach : (here.place = .mesh 0 ∧ m1.issues (.atch 0 1 15) 0 = true ∧ (m1.entry 0 15).att = false) ∧
    (m1.issues (.bqry 0 9 8) 0 = true ∧ (m1.entry 0 9).bank < 2 ^ 16) ∧
    (b0.issues (.dtch 0 true 0) 0 = true ∧ b0.begun.handing 0 0 = false ∧ (b0.entry 0 0).att = true) := by decide +kernel

/-- Window 2 of core 0 claims bank b. -/
def claiming (b : Nat) (k : Bank) : State :=
  { launched {} { attach := [(2, { bank := b, clm := true })] } with banks := [(b, k)] }

theorem test_hyp_ClaimRows : ((claiming 0 {}).claimant 0 0 2 0 = some 1 ∧ (claiming 0 {}).loadedOn 0 = some 1 ∧ ((claiming 0 {}).tst 1).ctx.isSome = true ∧
      ((claiming 0 {}).entry 0 2).clm = true ∧ (claiming 0 {}).dead 0 = false ∧ (claiming 0 {}).inPaddock 0 0 = true) ∧
    ((claiming 3 {}).claimant 3 0 2 0 = some 1 ∧ (claiming 3 {}).inPaddock 3 0 = false ∧ (claiming 2 {}).inPaddock 2 0 = true) ∧
    ((claiming 0 { owner := 1 }).claimant 0 0 2 0 = some 1 ∧ ((claiming 0 { owner := 1 }).bank 0).owner ≠ 0) ∧
    (((claiming 0 { att := true, queue := List.replicate 7 ⟨1, 0, 0, none, none⟩ }).bank 0).queue.length < 8 ∧
      ¬ ((claiming 0 { att := true, queue := List.replicate 8 ⟨1, 0, 0, none, none⟩ }).bank 0).queue.length < 8) := by decide +kernel

/-- Bank 0 drains, with the claims of its queue. -/
def draining (q : List Claim) : State := claiming 0 { att := true, core := some 0, fallow := false, drain := some .dtch, queue := q }

/-- Bank 0 lands in window 0 of core 0. -/
def landing : State :=
  { launched {} { attach := [(0, { bank := 0, att := true, land := true })] } with
    banks := [(0, { att := true, core := some 0, landing := some ⟨0, 0, 0, some 1, none⟩ })] }

theorem test_hyp_DrainAndRetention : (((draining []).bank 0).drain.isSome = true ∧ (draining []).bankBusy 0 0 true = false ∧
      ((draining []).bank 0).queue = [] ∧ ((draining []).bank 0).heldClaims = []) ∧
    (((draining [⟨0, 2, 0, some 1, none⟩]).bank 0).queue = [⟨0, 2, 0, some 1, none⟩] ∧ (draining [⟨0, 2, 0, some 1, none⟩]).loadedOn 0 = some 1 ∧
      ((draining []).tst 1).ctx.isSome = true) ∧
    ((claiming 0 { entering := true }).bank 0).entering = true ∧
    ((landing.bank 0).landing = some ⟨0, 0, 0, some 1, none⟩ ∧ (landing.bank 0).entering = false ∧ (landing.entry 0 0).att = true ∧
      (landing.entry 0 0).bank = 0) := by decide +kernel

/-- Slot 0 of core 0 hands bank 0 of window 0 to window 5. -/
def handing : State :=
  { launched {} { attach := [(0, { bank := 0, att := true, rd := true, wr := true })] } with
    slots := [(slotKey here, { status := .parked (.hovr 0 0x50000 true none) })] }

/-- It hands it to window 5 of core 1, with a notice, for a context that is out. -/
def handingOut : State :=
  { handing with
    slots := [(slotKey here, { status := .parked (.hovr 0 0x50001 true (some (3, 9))) })]
    turnstiles := handing.turnstiles ++ [(2, { state := 2, rect := 0x10001, desc := some desc0, ctx := some {
      loaded := false, unloaded := false, saved := some { slots := [], sites := [], stores := [], descriptors := [], banks := [], barkers := [] } } })] }

theorem test_hyp_HandOver : ((launched (two 0x50000 0) { attach := [(0, { att := true })] }).issues (.hovr 0 true 2 1 0) 0 = true ∧
      (launched (two 0x50000 0) { attach := [(0, { att := true })] }).issues (.hovrNotice 0 3 true 2 1 0) 0 = true) ∧
    ((handing.slot here).status = .parked (.hovr 0 0x50000 true none) ∧ handing.bankBusy 0 0 false = false ∧ handing.handCode 0 0 0 5 0 = 0 ∧
      handing.target 0 0 true = .site ∧ (0, 0) ≠ (0, 5)) ∧
    handing.handCode 0 0 0 0 0 ≠ 0 ∧
    (let s : State := { handing with
        slots := [(slotKey here, { status := .parked (.hovr 0 0x50001 true none) }), (slotKey (meshSlot 1 0), { status := .ready })]
        sites := handing.sites ++ [(1, { launch := some 1 })]
        turnstiles := handing.turnstiles.map fun e => (e.1, { e.2 with rect := 0x00010000 }) };
      s.handCode 0 0 1 5 0 = 0 ∧ s.bankBusy 0 0 false = false ∧ s.target 1 0 true = .site) ∧
    ((handingOut.slot here).status = .parked (.hovr 0 0x50001 true (some (3, 9))) ∧ handingOut.bankBusy 0 0 false = false ∧
      handingOut.handCode 0 0 1 5 0 = 0 ∧ handingOut.target 1 0 true = .log 2) := by decide +kernel

/-- Core 0 is revoked while windows 0 and 3 hold banks 0 and 8192; window 2 has claimed bank 0. -/
def revoking : State :=
  { launched {} { attach := [(0, { bank := 0, att := true }), (2, { bank := 0, clm := true }), (3, { bank := 8192, att := true })]
                  revoking := some { slot := here, tcause := 2, origin := 0, owner := 0 } } with
    banks := [(0, { att := true, queue := [⟨0, 2, 0, some 1, none⟩] }), (8192, { att := true })] }

theorem test_hyp_RevocationAndCommands : ((revoking.site 0).revoking = some { slot := here, tcause := 2, origin := 0, owner := 0 } ∧
      revoking.attachedWindows 0 = [0, 3] ∧ revoking.bankBusy 0 0 false = false ∧ revoking.bankBusy 8192 0 false = false ∧
      ((coreSlots 0).all fun r => !(revoking.slot r).atomicHead) ∧ (revoking.entry 0 0).clm = false ∧ (revoking.entry 0 3).clm = false ∧
      revoking.claimTarget ⟨0, 2, 0, some 1, none⟩ = .site ∧ (revoking.entry 0 2).clm = true) ∧
    ((launched {} {}).bankFree 0 0 = true ∧ (launched {} {}).bankFree 0 1024 = false ∧ ((launched {} {}).entry 0 15).att = false ∧
      (launched {} {}).inPaddock 0 0 = true ∧ (launched {} {}).inPaddock 0 3 = false ∧ (launched {} {}).target 0 0 true = .site) ∧
    ((claiming 0 { queue := [⟨0, 2, 0, some 1, none⟩] }).bankFree 0 0 = true ∧ (claiming 0 {}).claimTarget ⟨0, 2, 0, some 1, none⟩ = .site ∧
      ((claiming 0 {}).entry 0 2).clm = true) ∧
    ((claiming 0 { clearing := true }).bank 0).clearing = true ∧
    ((claiming 0 { att := true, core := some 0 }).loadedOn 0 = some 1 ∧ ((claiming 0 {}).tst 1).desc = some desc0) := by decide +kernel

/-! Hypotheses: registers, traps, translation. -/

theorem test_hyp_SpecialRegisters : (m1.issues (.setc 0 0x027 1) 0 = true ∧ isCarousel m1.cur.place = false ∧ Claims.cregMask m1.cur 0x027 = some 0xFFC0) ∧
    (m1.issues (.setc 0 0x030 1) 0 = true ∧ Claims.cregMask m1.cur 0x030 = none) ∧
    (m1.issues (.getc 0 0 3) 0 = true ∧ (m1.now.creg m1.cur 0).isSome = true) ∧
    (m1.issues (.getc 0 0x7FF 3) 0 = true ∧ m1.now.creg m1.cur 0x7FF = none) ∧
    m1.issues (.sets 0 127 0 7) 0 = true ∧ m1.issues (.sets 0 128 0 7) 0 = true := by decide +kernel

/-- A slot of control core 0 of die 0. -/
def ctlHere : SlotRef := { place := .ctl 1 0, k := 0 }

def mkCtl (x : Slot) : State := { mk {} with slots := [(slotKey ctlHere, { x with status := .ready })], cur := ctlHere }

/-- A spawned slot of a context, with TEN.REVOKE and a reservation, that a pre-emption may be stopping. -/
def doomed (x : Slot) (stopping : Option Nat) : State :=
  { launched { x with ten := 0x40, spawned := true, resv := some (line8 true) } {} with
    turnstiles := [(1, { state := 2, desc := some desc0, ctx := some { loaded := true, unloaded := false, stopping := stopping } })] }

theorem test_hyp_TrapEntry : (isCarousel here.place = false ∧ ((mk { tvec := 0x100 }).slot here).streamed = false ∧
      ((mk { tvec := 0x100 }).slot here).tvec ≠ 0 ∧ ((mk { tvec := 0x100 }).slot here).tinfo.getLsbD 30 = false) ∧
    (((doomed {} none).slot here).tvec = 0 ∧ ((doomed {} none).slot here).spawned = true ∧ (doomed {} none).stopping 0 = false) ∧
    (((doomed { tvec := 4, streamed := true } none).slot here).streamed = true ∧ ((doomed { tvec := 4, tinfo := 1 <<< 30 } none).slot here).tinfo.getLsbD 30 = true) ∧
    (((doomed {} (some 1024)).slot here).ten.getLsbD 6 = true ∧ (doomed {} (some 1024)).stopping 0 = true ∧
      ((doomed {} (some 1024)).site 0).launch = some 1 ∧ ((doomed {} (some 1024)).ctx 1).isSome = true) ∧
    ({ status := .parked (.applied 3 5), stage := .appended 5 } : Slot).pin = some (3, 5) ∧
    (isCtl ctlHere.place = true ∧ ((mkCtl { tvec := 4 }).slot ctlHere).tvec ≠ 0 ∧ ((mkCtl {}).slot ctlHere).tvec = 0) ∧
    (({ records := [⟨2, 0, 0, ⟨9, 0⟩⟩, ⟨5, 0, 0, ⟨9, 0⟩⟩] } : Site).records.map BenchRec.k).Pairwise (· ≤ ·) := by decide +kernel

/-- The slot is parked. -/
def parkedAt (p : Park) : State := { m1 with slots := [(slotKey here, { status := .parked p })] }

theorem test_hyp_TimeAndTranslation : m1.issues (.time 0 4) 0 = true ∧ ((parkedAt .time).slot here).status = .parked .time ∧
    (((parkedAt (.tlb 0x10000 .load)).slot here).status = .parked (.tlb 0x10000 .load)) ∧ (mkCtl {}).issues (.tlbi 0 .all 1) 0 = true ∧
    (({ m1 with iod := { m1.iod with tlbis := [⟨4, some here, .all, 0, 0, [7]⟩] } } : State).iod.tlbis.find? (fun t => t.id == 4)).isSome = true ∧
    (m1.iod.hostWaits = [] ∧ (mkCtl {}).issues (.wake 0 1) 0 = true ∧ (mkCtl {}).now.status = .ready) ∧
    (let s := { mkCtl {} with
        slots := [(slotKey (meshSlot 1 1), { status := .parked (.fault 64 .load .rights) }), (slotKey ctlHere, { status := .ready, g := [(1, 0x2001)] })] };
      s.issues (.wake 0 1) 0 = true ∧ (s.now.getG 1).extractLsb' 0 16 = BitVec.ofNat 16 (1 + 1 * 2 ^ 13) ∧
      (s.slot (meshSlot 1 1)).status = .parked (.fault 64 .load .rights) ∧ (tget ({} : Barker) (s.die (coreDie 1)).barkers (barkerKey 1 1)).stall = none) ∧
    ((({ m1 with dies := [(0, { pfq := [⟨1, 2⟩] })] } : State).die 0).pfq = [⟨1, 2⟩]) ∧
    (inDram 0 24 = true ∧ inDram (m1.physNum 0 8) 8 = true ∧ inDram (64 * ((2 ^ 48 - 1 : Dword).extractLsb' 6 42).toNat) 24 = false) ∧
    (let s := { m1 with mds := [(0, { status := 1, job := some (0x10000, 0x0000000200030111, 0x0000000300030011, 3) })], keys := [(3, 4)] };
      (s.md 0).job = some (0x10000, 0x0000000200030111, 0x0000000300030011, 3) ∧ s.dieBusy 0 = false ∧
      leafSize 0x0000000200030111 = leafSize 0x0000000300030011 ∧ s.goodLeaf 3 0x0000000200030011 = true ∧
      s.goodLeaf 3 0x0000000300030011 = true ∧ (0x0000000200030311 : Dword).getLsbD 9 = true) := by decide +kernel

/-! Hypotheses: spawning, turnstiles, scheduling. -/

/-- SPAWN's operands: an entry in g2 and a target in g1. -/
def spawner (t e : Dword) (y : Site) : State := launched { g := [(1, t), (2, e)], acct := 0 } y

theorem test_hyp_Spawning : ((spawner 0x2000 4 {}).issues (.spawn 0 false 2 1) 0 = true ∧ Claims.spawnTo 0x2000 = none ∧
      Claims.spawnTo 0x10008 = none ∧ Claims.spawnTo 0x10007 = some (none, 7) ∧ Claims.spawnTo 0x1FFF = some (some 8191, 7)) ∧
    ((spawner 0 0xFFFC {}).issues (.spawn 0 false 2 1) 0 = true ∧ (spawner 0 0xFFFC {}).now.status = .ready ∧ Claims.spawnTo 0 = some (some 0, 0) ∧
      (spawner 0 0xFFFC {}).now.drained 1 = true ∧ (spawner 0 4 {}).dead 0 = false ∧ (spawner 0 4 {}).loadedOn 0 = some 1 ∧
      ((spawner 0 4 {}).tst 1).owner = 0 ∧
      ((spawner 0 4 {}).begun.serveReady 0).serverOf ⟨some 0, 0, 4, 0, 0, [0, 0, 0, 0], false⟩ = some (0, 1)) ∧
    (let s := { launched {} {} with dies := [(0, { ready := [⟨none, 0, 4, 0, 0, [], true⟩] })] };
      s.firstServed (s.die 0).ready = some (⟨none, 0, 4, 0, 0, [], true⟩, 0, 1) ∧ s.loadedOn 0 = some 1) ∧
    (let q : SpawnReq := ⟨none, 1, 4, 0, 0, [], true⟩;
      let s := { launched {} {} with dies := [(1, { ready := [q] })] };
      let u (s : State) := ((s.modDie 1 fun x => { x with ready := x.ready.erase q }).spawnPacket (gate 1) (gate 0)).serveReady 0;
      (s.die 1).ready.find? (fun q => q.stealable && [0].contains q.owner.toNat) = some q ∧
      (u s).serverOf { q with die := 0 } = some (0, 1) ∧ s.loadedOn 0 = some 1 ∧
      (u { s with sites := [] }).serverOf { q with die := 0 } = none) ∧
    (m1.firstServed (m1.die 0).ready = none ∧ (m1.die 1).ready.find? (fun q => q.stealable && [0].contains q.owner.toNat) = none) ∧
    (let s := { spawner 0 4 { launch := some 1 } with
        slots := (List.range 8).map fun k => (slotKey (meshSlot 0 k), { status := .ready, g := [(2, 4)] }) };
      (s.begun.serveReady 0).serverOf ⟨some 0, 0, 4, 0, 0, [0, 0, 0, 0], false⟩ = none ∧ s.issues (.spawn 0 false 2 1) 0 = true ∧
      ((s.begun.serveReady 0).die 0).ready.length < 64) ∧
    ((mk { spawned := true }).issues (.quit 0) 0 = true ∧ (mk { spawned := true }).now.resv = none) ∧
    (m1.issues (.yield 0) 0 = true ∧ m1.ctxOf m1.cur = none ∧ (launched {} {}).ctxOf here = some 1 ∧ (launched {} {}).rival 1 = false) := by
  decide +kernel

/-- Turnstile 5 is armed with a descriptor and takes the tag 9. -/
def armed (t : Turnstile) : State := { m1 with turnstiles := [(5, { t with tag := 9, desc := some { desc0 with gate := 2 } })] }

def nine : Tagged := { tag := 9, owner := 0, device := 0, sender := 0, payload := List.replicate 240 1 }

theorem test_hyp_Turnstiles : ((mkCtl (two 1023 0)).issues (.arm 0 2 2 1 9) 0 = true ∧ rectOk 0 = true ∧ (mkCtl (two 1023 0)).now.drained 1 = true ∧
      (descPieces 0).any (mkCtl (two 1023 0)).piecePoisoned = false ∧ (0 : Dword).toNat + 320 ≤ dramTop ∧
      (mkCtl (two 1023 0)).begun.armSegv 1023 0 0 = none ∧
      (mkCtl (two 1023 0)).now.unperformed (descPieces 0) = false ∧ (mkCtl (two 1023 0)).begun.queuedStores none (descPieces 0) = false) ∧
    ((mkCtl { g := [(1, 1023), (3, 0x018000000000)] }).issues (.arm 0 3 2 1 9) 0 = true ∧ isMmio 0x018000000000 = false ∧
      dramTop < (0x018000000000 : Dword).toNat + 320) ∧
    (descPieces 0).any ({ mkCtl {} with poison := [(hashKey 64, true)] } : State).piecePoisoned = true ∧
    (let a : Relaxed := { id := 1, tepc := 0, va := 0, store := true, dest := .none, pieces := descPieces 0, data := [], arrived := false, away := 0, port := false };
      (mkCtl { two 1023 0 with relaxed := [a] }).now.unperformed (descPieces 0) = true ∧
      (mkCtl { two 1023 0 with relaxed := [a] }).issues (.arm 0 2 2 1 9) 0 = true) ∧
    240 < (List.replicate 241 (1 : Byte)).length ∧ (armed { state := 2 }).tst 5 = { (armed { state := 2 }).tst 5 with held := [] } ∧
    ((mkCtl (two 1024 0)).issues (.arm 0 2 2 1 9) 0 = true ∧ 1024 ≤ ((mkCtl (two 1024 0)).now.getG 1).toNat) ∧
    (nine.payload.length ≤ 240 ∧ (armed { state := 2, count := 1 }).taggedFor nine = some 5 ∧ ((armed { state := 2, count := 1 }).tst 5).count + 1 = 2 ∧
      (armed { state := 1, count := 0 }).taggedFor nine = some 5) ∧
    (armed { state := 2 }).taggedFor { nine with tag := 8 } = none ∧
    (((armed { state := 2, out := 3, held := [(nine, 0)] }).tst 5).held = [(nine, 0)] ∧ ((armed { state := 2, out := 3, held := [(nine, 0)] }).tst 5).out < 4 ∧
      ((armed { state := 2 }).tst 5).count + 1 ≠ 2) ∧
    ((mkCtl {}).issues (.disarm 0 1) 0 = true ∧ (mkCtl {}).now.stage = .fresh) ∧
    ((armed { state := 3 }).tst 5).state = 3 := by decide +kernel

/-- A context with a descriptor. -/
def context (c : Context) : State := { m1 with turnstiles := [(1, { state := 2, desc := some desc0, ctx := some c })] }

/-- Context 2 is out and context 1 is to make way. -/
def making : State :=
  { m1 with
    sites := [(0, { launch := some 1 })]
    turnstiles := [(1, { state := 2, desc := some desc0, ctx := some { loaded := true, unloaded := false, stopping := some 2 } }),
      (2, { state := 2, desc := some desc0, ctx := some { loaded := false, unloaded := false } })] }

/-- The source of a launch on core 0, of owner 0, that Penvis arms in turnstile 5 when `a`. -/
def plan (a : Bool) : LaunchPlan :=
  ⟨64, 0, 0, 7, [], [], [], 128, if a then some { index := 5, tag := 9, desc := 0 } else none⟩

/-- Core 0 of die 0 is unusable, and with `all` every other of the die. -/
def broken (all : Bool) : State :=
  { m1 with dies := [(0, { marks := (List.range (if all then 32 else 1)).map fun i => (i, if all then 0xFFFFFFFF else 1) })] }

theorem test_hyp_Loading : (m1.planOf 64 = none ∧ m1.placed 0 = some 0) ∧
    ((broken false).usableRect 0 = false ∧ (broken false).placed 0 = some 0x00010001 ∧ (broken false).iod.duty.getLsbD 4 = false) ∧
    ((broken true).placed 0 = none ∧ (broken true).planOf 64 = none) ∧
    (let u := m1.loadPlaced (plan true);
      (plan true).arm.isSome = true ∧ m1.iod.duty.getLsbD 4 = false ∧ armIll 5 ((0 : Word).setWidth 64) = false ∧
      (descPieces 0).any u.piecePoisoned = false ∧ u.armSegv 5 0 0 = none) ∧
    (let s := { making with turnstiles := making.turnstiles.filter fun e => e.1 != 2 };
      s.ctx 1 = some { loaded := true, unloaded := false, stopping := some 2 } ∧ s.ctx 2 = none) := by decide +kernel

theorem test_hyp_Scheduling : ((context {}).ctx 1 = some {} ∧ ((context {}).tst 1).desc = some desc0 ∧ ((context {}).tst 1).state = 2 ∧
      (context {}).iod.ckptStatus ≠ 1 ∧ (context {}).inTheWay 1 = []) ∧
    (let p (shared own : List ObjectPlan) : LaunchPlan := ⟨64, 0, 0, 7, [], shared, own, 128, none⟩;
      let o : ObjectPlan := ⟨8, 1024, [0], [(0, true)]⟩;
      let made (x : List Nat ⊕ Nat) : Bool := match x with | .inl _ => true | .inr _ => false;
      let own (s : State) (os : List ObjectPlan) := (s.imageObjects 0 (p [] os)).2.createObjects 0 0 (rectDies [0]) [] os;
      let full : State := { m1 with objects := (List.range 256).map fun n => (n, { w0 := 1 }) };
      made (full.imageObjects 0 (p [o] [])).1 = false ∧ made (full.imageObjects 0 (p [] [o])).1 = true ∧ made (own full [o]).1 = false ∧
      made (own m1 []).1 = true) ∧
    (launched {} {}).ctx 1 = some { loaded := true, unloaded := false } ∧
    (making.ctx 1 = some { loaded := true, unloaded := false, stopping := some 2 } ∧ making.ctx 2 = some { loaded := false, unloaded := false } ∧
      (making.tst 1).desc = some desc0 ∧ (making.tst 1).state = 2) ∧
    (making.inTheWay 2 ≠ [] ∧ (making.tst 2).state = 2) ∧
    (let v : Saved := { slots := [(0, { pc := 8, status := .parked .yield })], sites := [], stores := [], descriptors := [], banks := [], barkers := [], area := [0] };
      (context {}).keyBytes ((context {}).ownerKey 0) desc0.ctxPA 1 = [0] ∧
      (context { unloaded := false, saved := some v }).ctx 1 = some { unloaded := false, saved := some v } ∧
      (context { unloaded := false, saved := some v }).inTheWay 1 = [] ∧ v.banks.all (context {}).canLand = true) := by decide +kernel

/-! Hypotheses: streams and matrices. -/

/-- Row 0's barker serves slot 0 for a launch on core 0. -/
def barking (b : Barker) : State := (launched streamedSlot {}).modBarker 0 0 0 fun _ => { b with launch := some 1 }

theorem test_hyp_Streams : (((barking {}).barker 0 0 0).launch = some 1 ∧ ((barking {}).tst 1).desc = some desc0 ∧ ((barking {}).barker 0 0 0).waiting = false ∧
      ((barking {}).barker 0 0 0).stall = none ∧ ((barking {}).barker 0 0 0).sent.length < 16 ∧ desc0.streamLen ≤ ((barking {}).barker 0 0 0).next.toNat ∧
      ((barking { next := 0xFFFC }).barker 0 0 0).next = 0xFFFC ∧ ((barking { next := 0xFFFC }).barker 0 0 0).stopped = false) ∧
    (let s := barking { sent := [{ off := 4, w := 0x98 }] };
      (s.slot (meshSlot 0 0)).streamed = true ∧ (s.slot (meshSlot 0 0)).status ≠ .benched ∧ (s.slot (meshSlot 0 0)).buf.length < 16 ∧
      isLead (s.slot (meshSlot 0 0)).rect 0 = true ∧ (s.barker (coreDie 0) (coreRow 0) 0).sent = [{ off := 4, w := 0x98 }]) ∧
    ((barking { votes := [(3, true, 0)] }).barker 0 0 0).votes = [(3, true, 0)] ∧
    (here.place = .mesh 0 ∧ (mk streamedSlot).issues (.vote 0 true 1 2) 0 = true ∧ (mk streamedSlot).now.streamed = true ∧
      (mk streamedSlot).now.stage = .fresh ∧ (mk streamedSlot).now.buf = [{ off := 0, w := 0x98 }]) ∧
    (m1.issues (.vote 0 true 1 2) 0 = true ∧ m1.now.streamed = false) ∧
    (let s : State := { State.reset with slots := [(slotKey (meshSlot 1 0), { streamedSlot with status := .benched, rect := 0x00020000 })] };
      (s.slot (meshSlot 1 0)).streamed = true ∧ (s.slot (meshSlot 1 0)).status = .benched ∧ isLead (s.slot (meshSlot 1 0)).rect 1 = false ∧
      eastEdge (s.slot (meshSlot 1 0)).rect 1 = false) ∧
    (((parkedAt .emptyStream).slot here).status = .parked .emptyStream ∧ (parkedAt .emptyStream).parkOver here .emptyStream = false ∧
      ({ parkedAt .w5Full with cur := here } : State).parkOver here .w5Full = true ∧ ((parkedAt .w5Full).slot here).status = .parked .w5Full) := by
  decide +kernel

/-- An f32 shape of 32 by 16 with rows of 128 bytes. -/
def tile : BitVec 256 := 10 + 2 ^ 4 + 32 * 2 ^ 8 + 16 * 2 ^ 24 + 128 * 2 ^ 72 + 16 * 2 ^ 168 + 2 ^ 184 + 6 * 2 ^ 200

/-- Core 0 with window 0, that shape in slot 1, and commands in w5. -/
def matrices (x : Slot) (es : List Queued) : State :=
  { mk { x with fmta := 10, fmtb := 10, fmtc := 10, srg := 4 } with
    sites := [(0, { attach := [(0, { bank := 0, att := true, rd := true, wr := true })], ts := [(1, some tile)], w5 := es })] }

/-- Whether a command is one of guard q0, and is waited for. -/
def issuable (o : Option (R4 × MatrixCmd × List LRun × Bool)) (w : Bool) : Bool :=
  match o with | some (q, _, _, b) => q == 0 && b == w | none => false

theorem test_hyp_MatrixIssue : (issuable (Claims.matrixOf (matrices {} []) (.mlatch 0 1 0 false)) true = true ∧
      (matrices {} []).issues (.mlatch 0 1 0 false) 0 = true ∧ (matrices {} []).begun.pending here = none) ∧
    (issuable (Claims.matrixOf (matrices {} []) (.mmaLocal 0 1 1 0 0 3 0 true)) true = true ∧
      (matrices {} []).issues (.mmaLocal 0 1 1 0 0 3 0 true) 0 = true) ∧
    (issuable (Claims.matrixOf (matrices {} []) (.mmaLatch 0 1 true 0 3 0 true true)) true = true ∧
      (matrices {} []).issues (.mmaLatch 0 1 true 0 3 0 true true) 0 = true) ∧
    (issuable (Claims.matrixOf (matrices {} []) (.msto 0 1 0 0 3)) true = true ∧ (matrices {} []).issues (.msto 0 1 0 0 3) 0 = true) ∧
    (issuable (Claims.matrixOf m1 (.mzero 0 3)) false = true ∧ m1.issues (.mzero 0 3) 0 = true) ∧
    (issuable (Claims.matrixOf m1 (.mpass 0 .north true)) false = true ∧ m1.issues (.mpass 0 .north true) 0 = true) ∧
    (issuable (Claims.matrixOf m1 (.mstoStream 0 3)) false = true ∧ m1.issues (.mstoStream 0 3) 0 = true) ∧
    (m1.issues (.mmaLatch 0 1 true 0 3 0 true true) 0 = true ∧ m1.begun.pending here = none ∧ m1.begun.shapeFor here m1.now 1 = none) ∧
    mmaKind 7 10 10 = none ∧ matrixFmt 13 = false := by decide +kernel

/-- A queued command of the slot. -/
def queued (c : MatrixCmd) : Queued := { id := 1, slot := here, cmd := c }

/-- The slot waits for it at the head of w5. -/
def running (c : MatrixCmd) : State :=
  { matrices {} [queued c] with slots := [(slotKey here, { status := .parked (.matrix 1) })] }

/-- The modes an MMA of f32 samples. -/
def f32Cfg : MmaCfg := { fmta := 10, fmtb := 10, scla := 0, sclb := 0, srg := 4, prom := 1, mode := 0 }

/-- A full latch of 32 rows of f32. -/
def fullLatch : Latch := { st := .full, fmt := 10, k := 32 }

/-- Core 0 passes latch 1, which is full, to itself. -/
def passing (p : Bool) : State :=
  { launched {} { w5 := [{ queued (.mpass true .east) with passing := p }], lat := [(1, fullLatch)] } with cur := here }

/-- An MMA with latch 1, which it passes on. -/
def latched : MatrixCmd := .mma 3 0 tile (.lat true) 0 false true f32Cfg

/-- Core 0 runs it: its sums are to be made, or are made and its pass is to begin or to end. -/
def passB (summed p : Bool) : State :=
  { launched {} { attach := [(0, { bank := 0, att := true, rd := true, wr := true })], w5 := [{ queued latched with summed := summed, passing := p }]
                  lat := [(1, fullLatch)] } with
    slots := [(slotKey here, { status := .parked (.matrix 1) })] }

/-- Whether a command's operands are read from memory, and how many they are. -/
def operands (s : State) (c : MatrixCmd) (os : List OpSpec) (n : Nat) : Bool :=
  match s.memOperands 0 (queued c) os false with | .inl (vs, _) => vs.length == n | _ => false

/-- MSTO of bytes through a segment, of this device or another, whose page the TLB holds. -/
def through (seg : BitVec 128) (d : Iod) : State :=
  { running (.mstoMem 3 seg false 0 tile 0 0) with dies := [(0, { tlb := [⟨0, 0, 0x3F⟩] })], iod := d }

/-- A segment of this device. -/
def near : BitVec 128 := 64 * 2 ^ 64 + 2 ^ 96 + 2 ^ 97 + 2 ^ 99

/-- Key, row and position of each byte of its rows, when every row is found. -/
def spread (s : State) : Option (List (Nat × Nat × Nat)) :=
  (List.range 16).foldl (fun l m => match l, s.rowAt 0 (queued (.mstoMem 3 near false 0 tile 0 0)) near false (m * shStride tile 1) 16 with
    | some l, .pieces ps => some (l ++ ps.flatMap fun p => (List.range p.n).map fun j => (p.key + j, m, p.pos + j))
    | _, _ => none) (some [])

theorem test_hyp_MatrixRuns : ((running (.mzero 3)).site 0).w5 = [queued (.mzero 3)] ∧
    (((running (.mlatch false 0 tile 0)).site 0).w5 = [queued (.mlatch false 0 tile 0)] ∧
      (((running (.mlatch false 0 tile 0)).site 0).latBuf false).st ≠ .filling ∧
      ((running (.mlatch false 0 tile 0)).slot here).status = .parked (.matrix 1) ∧
      operands (running (.mlatch false 0 tile 0)) (.mlatch false 0 tile 0) [opSpec 0 tile (shDim tile 0) 0] 1 = true) ∧
    (((passing false).site 0).w5 = [queued (.mpass true .east)] ∧ (passing false).loadedOn 0 = some 1 ∧ ringNeighbour ((passing false).tst 1).rect 0 .east = 0 ∧
      ((passing false).site 0).latBuf true = fullLatch ∧ (((passing false).site 0).latBuf false).st = .empty ∧
      (passing false).running 0 = true ∧ ({ passing false with slots := [(slotKey here, { status := .benched })] } : State).running 0 = false ∧
      ((passing true).site 0).w5 = [{ queued (.mpass true .east) with passing := true }]) ∧
    (((passB true false).site 0).w5 = [{ queued latched with summed := true }] ∧ (((passB true false).site 0).latBuf true).st = .full ∧
      (((passB true false).site 0).latBuf false).st = .empty ∧ (passB true false).loadedOn 0 = some 1 ∧
      ((passB true true).site 0).w5 = [{ queued latched with summed := true, passing := true }] ∧ ((passB true true).slot here).status = .parked (.matrix 1)) ∧
    (let c : MatrixCmd := .mma 3 0 tile (.mem 0 tile) 0 false false f32Cfg;
      ((running c).site 0).w5 = [queued c] ∧ operands (running c) c [opSpec 0 tile 32 0, opSpec 0 tile 32 0] 2 = true) ∧
    (((passB false false).site 0).w5 = [queued latched] ∧ ((passB false false).site 0).latBuf true = fullLatch ∧
      operands (passB false false) latched [opSpec 0 tile 32 0] 1 = true) := by decide +kernel

theorem test_hyp_MatrixStores : (let s := running (.mstoMem 3 0 true 0 tile 10 0);
      (s.site 0).w5 = [queued (.mstoMem 3 0 true 0 tile 10 0)] ∧ (s.slot here).relaxed = [] ∧ (s.die 0).egress = [] ∧ s.poison = [] ∧
      15 * shStride tile 1 + 16 * fmtcBytes 10 ≤ 2 ^ 16 ∧ 16 * fmtcBytes 10 ≤ shStride tile 1 ∧
      (List.range 16).all fun m => match s.localAt 0 [] (m * shStride tile 1) .store with | .keys k => k == bankKey 0 (m * shStride tile 1) | _ => false) ∧
    (let s := through near {};
      (s.site 0).w5 = [queued (.mstoMem 3 near false 0 tile 0 0)] ∧ fmtcBytes 0 = 1 ∧
      (∀ m, m < 16 → ∀ i, i < 16 → ((s.die 0).lookup 0 (segAddr near (BitVec.ofNat 64 (m * shStride tile 1 + i))).toNat).isSome = true) ∧
      (match spread s with | some l => l.all fun a => l.all fun b => a.1 != b.1 || a == b | none => false) = true) ∧
    (let far := near + 5 * 2 ^ 48;
      let row : Part := { pos := 0, n := 16, spot := .remote 5 (segAddr far 0), addr := segAddr far 0 };
      segDev far = 5 ∧ (queued (.mstoMem 3 far false 0 tile 0 0)).asked = false ∧ (through far (linked [])).meetsAway here [row] = none ∧
      ((through far (linked [])).bump.askParts here 0 1 (through far {}).fresh 2 2 (.row 1) (List.replicate 16 0) [row]).isSome = true ∧
      ((through far {}).bump.askParts here 0 1 (through far {}).fresh 2 2 (.row 1) (List.replicate 16 0) [row]).isNone = true) ∧
    (((running (.mstoStream 3 10 0)).site 0).w5 = [queued (.mstoStream 3 10 0)] ∧ ((running (.mstoStream 3 10 0)).site 0).queue 6 = [] ∧
      0 < (streamEntries (storedCodes ((running (.mstoStream 3 10 0)).site 0) 3 10 0).1 (fmtcBytes 10)).length) :=
  ⟨by decide +kernel, by decide +kernel, by decide +kernel, by decide +kernel⟩

/-! Hypotheses: copies and the replay sequencer. -/

/-- A record of 64 bytes: rank 1, n8, d0 = tile0 = 64. -/
def bytes64 : BitVec 256 := 4 + 64 * 2 ^ 8 + 64 * 2 ^ 168 + 2 ^ 184 + 6 * 2 ^ 200

/-- Core 0 with window 0, that record in slot 1, and a segment of this device and one of device 5. -/
def copying (cs : List Copy) : State :=
  { mk { g := [(1, 0), (2, 0x10000)], segs := [(1, 64 * 2 ^ 64 + 2 ^ 96 + 2 ^ 97 + 2 ^ 99), (2, 5 * 2 ^ 48 + 64 * 2 ^ 64 + 2 ^ 96 + 2 ^ 97 + 2 ^ 99)] } with
    sites := [(0, { attach := [(0, { bank := 0, att := true, rd := true, wr := true })], ts := [(1, some bytes64)], w4 := cs.map Copy.id })]
    dies := [(0, { tlb := [⟨0, 0, 0x3F⟩] })]
    iod := { devt := [(0, 5 + 2 ^ 16)], ports := [(0, { state := 2 })] }
    copies := cs }

/-- A copy into bank 0 of 64 bytes at far address 0. -/
def fill (kind : CopyKind) (seg : BitVec 128) : Copy :=
  { id := 7, kind := kind, slot := here, acct := 0, owner := 0, bank := 0, off := 0, seg := seg, far := 0, farCore := 0, farBank := 0, farOff := 0
    shape := bytes64, sig := none, msg := none }

/-- That copy, suspended at its first packet. -/
def stopped : Copy := { fill .cpyg near with started := true, fault := some { packet := 0, kind := .rights, va := 64, off := 0 } }

/-- Two px8 rows of 32 elements. -/
def px2 : BitVec 256 := 14 + 2 ^ 4 + 32 * 2 ^ 8 + 2 * 2 ^ 24 + 2 ^ 72 + 2 ^ 168 + 2 ^ 184

theorem test_hyp_CopyRows : (let c := { fill .cpyg near with started := true, shape := px2 };
      c.unknown c.next = true ∧ (copying [c]).copy 7 = some c ∧ (copying [c]).heldUp c = false ∧ c.inbound = [] ∧
      (match ((copying [c]).findRow c).1 with | .inl w => w.src == 0 | _ => false) = true ∧
      (match (({ copying [c] with dies := [] } : State).findRow c).1 with | .inr (.fault _ _) => true | _ => false) = true) ∧
    (let d : Inbound := { id := 11, run := 0, pos := 0, data := List.replicate 64 1 };
      let c := { fill .getr (near + 5 * 2 ^ 48) with started := true, inbound := [d] };
      (copying [c]).copy 7 = some c ∧ c.inbound.find? (fun e => e.id == 11) = some d ∧ c.runs[0]? = some ⟨0, 0, 64, 64⟩ ∧
      (copying [c]).landWaits c = false ∧ (copying [c]).copyOut c = false) := by decide +kernel

theorem test_hyp_Copies : (Claims.copyOf (.cpyg 0 1 1 1 0 none none 1) = some (0, .cpyg, 1, 1, 1, 0, none, none, 1) ∧
      (copying []).issues (.cpyg 0 1 1 1 0 none none 1) 0 = true ∧ (copying []).now.drained 1 = true ∧
      (match copyCheck (copying []).begun here (copying []).now .cpyg 1 0 0 0 none none 1 with | .ok _ => true | _ => false) = true) ∧
    ((copying []).issues (.cpyb 0 1 2 2 0 none none 1) 0 = true ∧ 2 ^ 16 ≤ ((copying []).now.getG 2).toNat) ∧
    ((copying []).issues (.putr 0 2 1 1 0 none none 2) 0 = true ∧ (copying []).begun.shapeFor here (copying []).now 2 = none ∧ (copying []).begun.handing 0 9 = false) ∧
    ((copying []).issues (.getr 0 1 1 1 9 none none 2) 0 = true ∧ (copying []).begun.shapeFor here (copying []).now 1 = some bytes64 ∧ ((copying []).entry 0 9).att = false) ∧
    (((copying [fill .cpyg near]).site 0).w4 = [7] ∧ (copying [fill .cpyg near]).copy 7 = some (fill .cpyg near) ∧ (fill .cpyg near).away = false) ∧
    ((fill .getr (near + 5 * 2 ^ 48)).away = true ∧ (copying [fill .getr (near + 5 * 2 ^ 48)]).landWaits (fill .getr (near + 5 * 2 ^ 48)) = false ∧
      (∀ o, o ∈ (copying [fill .getr (near + 5 * 2 ^ 48)]).copies → o.id < 7 → o.fault = none) ∧
      ({ copying [] with iod := {} } : State).iod.route (segDev (near + 5 * 2 ^ 48)) = none ∧
      (copying []).iod.route (segDev (near + 5 * 2 ^ 48)) = some 0 ∧ (copying []).iod.portUp 0 = true ∧
      (match (fill .getr (near + 5 * 2 ^ 48)).runs with | [w] => w.n | _ => 0) = 64) ∧
    (let c := { fill .cpyg near with started := true };
      (copying [c]).copy 7 = some c ∧ (copying [c]).heldUp c = false ∧ (copying [c]).landWaits c = false ∧ (copying [c]).copyOut c = false ∧
      c.landed.contains 0 = false ∧ c.unknown 0 = false ∧ c.inbound = [] ∧
      (match (copying [c]).packetAt c 0 with
        | .hops hs _ => hs.length == 64 && hs.all (fun h => !(copying [c]).hopPoisoned h) &&
            hs.all (fun h => match h.from_ with | .inl (k, _) => tget 0 (copying [c]).tags k == 0 | .inr _ => true)
        | _ => false) = true) ∧
    (let c := { fill .cpyg near with started := true };
      (match (copying [c]).packetAt c 0 with
        | .hops (h :: _) _ => (match h.from_ with
          | .inl (k, _) => ({ copying [c] with poison := [(k / 64 * 64, true)] } : State).hopPoisoned h | .inr _ => false)
        | _ => false) = true ∧
      (match ({ copying [c] with dies := [(0, { tlb := [⟨0, 0, 0x13F⟩] })] } : State).packetAt c 0 with | .wait => true | _ => false) = true ∧
      (match ({ copying [c] with dies := [] } : State).packetAt c 0 with | .fault _ _ => true | _ => false) = true) ∧
    (let c := stopped;
      (copying [c]).copy 7 = some c ∧ c.fault = some { packet := 0, kind := .rights, va := 64, off := 0 } ∧
      (({ mkCtl (two 0x20000 0) with copies := [c] } : State).issues (.wake 0 1) 0 = true) ∧ (0x20000 : Dword).getLsbD 17 = true ∧
      (copying [c]).copies.find? (fun c => c.started && c.fault.isSome && c.handle == 0) = some c) :=
  ⟨⟨rfl, by decide +kernel⟩, by decide +kernel, by decide +kernel, by decide +kernel, by decide +kernel, by decide +kernel, by decide +kernel, by decide +kernel⟩

/-- Object 3 of owner 0 has a replica on dies 0 and 1, a log of 1,024 entries at PA 0x10000, two entries in it, and method 0 at 4, read-only. -/
def object : Object := { w0 := 0x0000_0A03_0000_0001, w1 := 0x10000, w2 := 1 + 128 * 2 ^ 16, tail := 2 }

def replayed (x : Slot) : State :=
  ({ mk x with objects := [(3, object)], dies := [(0, { replicas := [(3, { pool := [5], applied := 1 })] }), (1, { replicas := [(3, { pool := [6], applied := 1 })] })] } :
    State).setBytes (storeKey (placeKey (.carousel 0)) 128) [7, 0]

/-- Registers of a call of that object. -/
def caller : Slot := { g := [(1, 3), (2, 1), (4, 256)] }

theorem test_hyp_ReplayCalls : ((replayed caller).issues (.rcall 0 0 12 2 1 true) 0 = true ∧ (replayed caller).now.stage = .fresh ∧
      (replayed caller).objectFor 3 0 = true ∧ (replayed caller).methodEntry here.place 3 0 % 2 = 1 ∧ (replayed caller).repHere here.place 3 = true ∧
      (replayed caller).evictFirst here (replayed caller).now 3 = none) ∧
    ((replayed caller).issues (.rcall 0 0 12 2 4 true) 0 = true ∧ 256 ≤ ((replayed caller).now.getG 4).toNat) ∧
    ((replayed { caller with stage := .appended 1 }).issues (.rcall 0 0 12 2 1 true) 0 = true ∧
      (replayed { caller with stage := .appended 1 }).now.stage = .appended 1 ∧ (replayed {}).appliedAt here.place 3 = 1 ∧
      (replayed {}).logNum ((replayed {}).obj 3) 1 10 1 ≠ 2) ∧
    (({ replayed {} with slots := [(slotKey here, { status := .parked (.append 3 0 [1, 2, 3, 4]) })] } : State).slot here).status =
      .parked (.append 3 0 [1, 2, 3, 4]) ∧
    ((replayed caller).issues (.rread 0 0 12 2 1 true) 0 = true ∧ (replayed caller).methodEntry here.place 3 0 / 2 % 2 = 1 ∧
      (replayed { caller with stage := .tailIs 1 }).now.stage = .tailIs 1 ∧ ((replayed {}).replica 0 3).applied = 1 ∧ ((replayed {}).die 0).reads.length < 64 ∧
      (replayed { caller with stage := .readDone 0 1 2 }).issues (.rread 0 0 12 2 1 true) 0 = true) ∧
    ((parkedAt (.tail 3)).slot here).status = .parked (.tail 3) ∧
    ((replayed caller).issues (.rwait 0 2 1) 0 = true ∧ (mkCtl caller).issues (.rtrim 0 1) 0 = true ∧
      (mkCtl { caller with stage := .trimmed true }).issues (.rtrim 0 1) 0 = true ∧
      (replayed {}).trimDies 3 1 = some [0] ∧ (replayed {}).trimDies 3 3 = none) :=
  ⟨by decide +kernel, by decide +kernel, by decide +kernel, by decide +kernel, by decide +kernel, by decide +kernel, by decide +kernel⟩

/-- A carousel slot of die 0 that ends a method of object 3. -/
def ending (k : Nat) : State :=
  let r : SlotRef := { place := .carousel 0, k := k }
  { replayed {} with
    cur := r
    slots := [(slotKey here, { status := .parked (.read 0 3) }),
      (slotKey r, { status := .ready, depth := 1, method := some { obj := 3, pos := 2, ro := k != 0, left := 5, wbuf := [], caller := some here } })] }

/-- The bytes of the method's state block that its ST of eight bytes at g1 in s0 names, as parts that lie in the block. -/
def blockPart : Part := { pos := 0, n := 8, spot := .block 0, addr := 0 }

theorem test_hyp_StoresInMethods : Claims.storeOf (ending 0) (.st 0 3 0 0 1 2) = some (0, 0, Claims.one 0 8, 0, -1) ∧
    (ending 0).issues (.st 0 3 0 0 1 2) 0 = true ∧ (ending 0).begun.places (ending 0).cur 0 .store (Claims.one 0 8) = .ok [blockPart] ∧
    (ending 0).cur.place = .carousel 0 ∧ (ending 0).now.method.isSome = true ∧ (ending 0).now.stage = .fresh :=
  ⟨rfl, by decide +kernel, rfl, rfl, by decide +kernel, rfl⟩

theorem test_hyp_ReplayedObjects : (m1.obj 3).valid = false ∧ (m1.obj 3).busy = false ∧ ({ object with w0 := 0, busy := true } : Object).valid = false ∧ fieldsOk (object.w0) 0x10000 (object.w2) = true ∧ fieldsOk 0 0 0 = false ∧
    ((replayed {}).obj 3).valid = true ∧
    (((replayed {}).slot { place := .carousel 0, k := 0 }).status = .free ∧ (replayed {}).turnOf 0 = some 3) ∧
    (let s := (replayed {}).modDie 0 fun d => { d with reads := [⟨3, 0, [], here⟩] };
      (s.die 0).reads = [⟨3, 0, [], here⟩] ∧ (s.replica 0 3).resync = false ∧ s.committing 0 = false ∧
      (List.range 7).find? (fun k => (s.slot { place := .carousel 0, k := k + 1 }).status == .free) = some 0) ∧
    ((ending 0).issues (.ret 0) 0 = true ∧ (ending 0).begun.readsIdle 0 = true ∧ (ending 0).now.depth = 1 ∧ (ending 0).now.method.isSome = true ∧
      ((ending 0).now.getG 15).toNat = 0 ∧ ((ending 0).replica 0 3).resync = false) ∧
    ((ending 7).issues (.ret 0) 0 = true ∧ ((ending 7).slot here).status = .parked (.read 0 3) ∧ slotKey here ≠ slotKey (ending 7).cur) ∧
    ((replayed {}).replica 0 3).onWay = [] ∧
    (((replayed {}).modReplica 0 3 fun x => { x with onWay := [64, 70] }).replica 0 3).onWay = [64, 70] ∧
    (((replayed {}).obj 3).repl 0 = true ∧ (replayed {}).donor 3 0 = some 1 ∧ (replayed {}).runsObject 1 3 1 = false ∧ (replayed {}).runsObject 0 3 8 = false ∧
      (replayed {}).blockPoisoned 1 3 = false ∧
      ((replayed {}).obj 3).blockBytes ≤ 2 ^ 16) := by decide +kernel

/-! Hypotheses: the fabric, the management port, hosts. -/

/-- Owner 0's tables on die 0: one page of 512 MiB at VA 0, with every right; port 0 leads to device 5. -/
def paged : State :=
  let s : State := { m1 with
    dies := [(0, { oroot := [(0, 2 ^ 16 + 2 ^ 32)] })]
    iod := { devt := [(0, 5 + 2 ^ 16)], ports := [(0, { state := 2 })], mgmt := [] } }
  (s.physPut 0 0x10000 (leBytes 8 (1 + 2 * 2 ^ 32))).physPut 0 0x20000 (leBytes 8 0x3F)

/-- A stream image of 16 bytes in that page, at VA `va`, and its words. -/
def streamAt (va : Nat) : Streamed × State :=
  (paged.physPut 0 0 (bytesOfWord 0x98 ++ bytesOfWord 3)).streamWord 0 0 { desc0 with streamVA := va, streamLen := 16 } 0

theorem test_hyp_StreamFetch : (match (streamAt 0).1 with | .word w => wordBytes w != 8 | _ => false) = true ∧
    (match (streamAt 4).1 with | .word w => wordBytes w == 8 | _ => false) = true ∧
    (match ((paged.physPut 0 0xFFFC (bytesOfWord 3)).streamWord 0 0 { desc0 with streamVA := 0, streamLen := 65536 } 0xFFFC).1 with
      | .word w => wordBytes w == 8 | _ => false) = true ∧
    (match (streamAt 0x20000000).1 with | .stall (.fault va .fetch _) true => va == 0x20000000 | _ => false) = true ∧
    (match (({ paged with dies := [(0, { oroot := [(0, 2 ^ 16 + 0xFFFFFFFF * 2 ^ 32)] })] } : State).streamWord 0 0 { desc0 with streamLen := 16 } 0).1 with
      | .segv va => va == 0 | _ => false) = true := by decide +kernel

/-- A packet of device 5 with 8 bytes for address 64 of owner 0. -/
def packet (op asub : Nat) (payload : List Byte) : Packet :=
  { dst := 0, src := 5, sock := 0, cls := 0, owner := 0, op := op, tag := 9, addr := 64, asub := asub, len := 8, seq := 0, payload := payload }

def eight : List Byte := [1, 2, 3, 4, 5, 6, 7, 8]

theorem test_hyp_FabricRequests : (match paged.homePieces 0 64 8 .load with
      | some ps => ps.length == 8 && !ps.any paged.piecePoisoned && !paged.homePoisoned ps | none => false) = true ∧
    (paged.homePieces 0 64 8 .copyRead).isSome = true ∧ (paged.homePieces 0 64 8 .copyWrite).isSome = true ∧
    (match paged.homePieces 0 64 8 .atomic with | some ps => !paged.wordsHeld ps | none => false) = true ∧
    (match paged.homePieces 0 64 8 .atomic with
      | some ps => (match ps with | p :: _ => ({ paged with resv := [(p.key, [here])] } : State).wordsHeld ps | [] => false) | none => false) = true ∧ paged.homePieces 1 64 8 .load = none ∧ paged.homePieces 1 64 8 .store = none ∧
    (match atomKind 0 eight with | some (n, len, _) => n == 8 && len == 8 | none => false) = true ∧ (atomKind 8 eight).isSome = true := by
  decide +kernel

/-- The slot waits for a request to device 5. -/
def waiting (w : ReqFor) : State :=
  { m1 with slots := [(slotKey here, { status := .parked (.remote 4) })], iod := { requests := [asking w] } }

/-- A slot with device 5's segment in s1, marked relaxed or not. -/
def reaching (marked : Bool) (d : Iod) : State :=
  { mk { g := [(1, 64), (2, 5)], segs := [(1, near + 5 * 2 ^ 48)], pre := if marked then some ⟨0, true, false, .dflt⟩ else none } with iod := d }

/-- Its access of eight bytes. -/
def farPart : Part := { pos := 0, n := 8, spot := .remote 5 64, addr := 64 }

/-- Whether an access is found to be that. -/
def isFar : Places → Bool
  | .ok ps => ps == [farPart]
  | _ => false

theorem goesAway (marked : Bool) : Claims.goAway (reaching marked (linked [])) [farPart] := by
  refine ⟨by decide, by cases marked <;> decide +kernel, fun p hp => ?_⟩
  rw [List.mem_singleton.mp hp]
  exact ⟨5, 64, 0, rfl, by cases marked <;> decide +kernel, by cases marked <;> decide +kernel⟩

theorem test_hyp_FabricRequestsSent : (Claims.loadOf (reaching false (linked [])) (.ldI64 0 0 1 1 4) = some (0, 1, Claims.one 64 8, .g 4 8 true) ∧
      (reaching false (linked [])).issues (.ldI64 0 0 1 1 4) 0 = true ∧
      isFar ((reaching false (linked [])).begun.places here 1 .load (Claims.one 64 8)) = true ∧
      relaxedHere here (reaching false (linked [])).now = false) ∧
    (Claims.storeOf (reaching true (linked [])) (.st 0 3 0 1 1 2) = some (0, 1, Claims.one 64 8, 5, -1) ∧
      (reaching true (linked [])).issues (.st 0 3 0 1 1 2) 0 = true ∧
      isFar ((reaching true (linked [])).begun.places here 1 .store (Claims.one 64 8)) = true ∧
      relaxedHere here (reaching true (linked [])).now = true) ∧
    ((reaching false {}).iod.route 5 = none ∧ (reaching false {}).meetsAway here [farPart] = none ∧
      isFar ((reaching false {}).begun.places here 1 .load (Claims.one 64 8)) = true) ∧
    ((∃ f, Claims.atomOf (reaching false (linked [])).now (.aadd 0 0 1 1 2) = some (0, 1, 64, 8, 2, f)) ∧
      Claims.atomAsked (reaching false (linked [])).now (.aadd 0 0 1 1 2) = some (0, leBytes 8 5) ∧
      (reaching false (linked [])).issues (.aadd 0 0 1 1 2) 0 = true ∧
      (reaching false (linked [])).begun.look here 1 64 8 .atomic 8 = .at (.remote 5 64)) :=
  ⟨⟨rfl, by decide +kernel⟩, ⟨rfl, by decide +kernel⟩, by decide +kernel, ⟨_, rfl⟩, by decide +kernel⟩

theorem test_hyp_FabricReplies : ((waiting (.load (.g 3 8 true))).iod.request 5 9 = some (asking (.load (.g 3 8 true))) ∧
      ((waiting (.load (.g 3 8 true))).slot here).status = .parked (.remote 4) ∧ (asking .store).bad = none ∧
      (waiting (.load (.g 3 8 true))).iod.groupOf 4 = [asking (.load (.g 3 8 true))]) ∧
    ((waiting .store).iod.request 5 9 = some (asking .store) ∧ (waiting .store).iod.groupOf 4 = [asking .store] ∧
      (waiting .store).iod.requests.find? (fun k => k.id == 9) = some (asking .store)) ∧
    (waiting (.atomic 3 false 8)).iod.request 5 9 = some (asking (.atomic 3 false 8)) ∧
    (let s : State := { waiting (.get 7 0) with copies := [{ fill .getr (near + 5 * 2 ^ 48) with started := true }] };
      s.iod.request 5 9 = some (asking (.get 7 0)) ∧ (s.copy 7).isSome = true ∧ (asking (.get 7 0)).n = 8 ∧
      (fill .getr (near + 5 * 2 ^ 48)).runs[0]? = some ⟨0, 0, 64, 64⟩) ∧
    (let s : State := { waiting (.row 1) with
        slots := [(slotKey here, { status := .parked (.matrix 1) })]
        sites := [(0, { w5 := [{ queued (.mstoMem 3 (near + 5 * 2 ^ 48) false 0 tile 0 0) with asked := true }] })] };
      (match s.reply (packet 7 0 []) with | some (q, _) => q == asking (.row 1) | none => false) = true ∧ (asking (.row 1)).slot = here) ∧
    m1.iod.request 5 9 = none ∧ commandWords (packet 12 0 eight) = none ∧
    commandWords (packet 12 0 (leBytes 8 (2 + 99 * 2 ^ 16) ++ List.replicate 56 0)) ≠ none := by decide +kernel

theorem test_hyp_PowerAndHeat : ({ m1 with power := false } : State).power = false ∧ ({ m1 with iod := { verified := false } } : State).iod.verified = false ∧
    ((m1.slot { place := .ctl 0 0, k := 3 }).status = .free ∧ m1.iod.verified = true) ∧
    (((mkCtl {}).slot ctlHere).status ≠ .free ∧ (mkCtl {}).slotHolds ctlHere = false) ∧
    (let x : Slot := { pre := some ⟨0, true, false, .rne⟩ };
      (mkCtl x).slotHolds ctlHere = true ∧ ((mkCtl x).slot ctlHere).resv = none) ∧
    (let x : Slot := { resv := some (line8 true) };
      ((mkCtl x).slot ctlHere).resv = some (line8 true) ∧ (line8 true).held = true ∧ ((mkCtl x).slot ctlHere).stage = .fresh) := by decide +kernel

theorem test_hyp_ManagementAndCheckpoints : Claims.spdmOf (.challenge ⟨.management, [1]⟩) = some (0x83, .management, [1], true) ∧ (255 < 256 ∧ (List.replicate 32 (0 : Byte)).length = 32) ∧
    (({ m1 with iod := { ckptStatus := 1 } } : State).iod.ckptStatus = 1 ∧ ({ m1 with iod := { ckptStatus := 1 } } : State).loadedContexts = []) ∧
    m1.iod.ckptStatus ≠ 1 := by decide +kernel

/-- Function f of device 5 serves DUTY. -/
def assisted : State :=
  { m1 with iod := { duty := 0x7F, dutyHost := (List.range 7).map (fun f => (f, 5)), devt := [(0, 5 + 2 ^ 16)], ports := [(0, { state := 2 })] } }

/-- The function that each command may come from. -/
def allowed (code : Nat) (v : Dword) : Bool := (List.range 7).any fun f => (assisted.commandRefused 5 f code v).isNone

theorem test_hyp_HostCommands : Claims.commandIs assisted (.hostBcmd 5 0 0 1 0) = some (5, 0, 2, 0, 1, 0, true) ∧
    (allowed 1 0 ∧ allowed 2 0x100000000 ∧ allowed 3 0 ∧ allowed 4 0 ∧ allowed 5 0 ∧ allowed 6 0 ∧ allowed 7 0 ∧ allowed 8 0 ∧ allowed 9 0 ∧ allowed 10 0) ∧
    (m1.iod.duty.getLsbD 6 = false ∧ armIll 1023 0 = false ∧ (descPieces 0).any assisted.piecePoisoned = false ∧ (m1.tst 1023).state = 0 ∧ m1.iod.ckptStatus ≠ 1) ∧
    (inDram 0 32 = true ∧ assisted.homePoisoned (physPieces 0 32) = false ∧ (physPieces 0 32).any assisted.piecePoisoned = false) ∧
    (({ m1 with iod := { events := [{ f := 2, code := 1, socket := 0, payload := 0, port := 0, seq := 0 }] } } : State).iod.events.filter
      (fun e => e.f == 2)) = [{ f := 2, code := 1, socket := 0, payload := 0, port := 0, seq := 0 }] :=
  ⟨rfl, by decide +kernel, by decide +kernel, by decide +kernel, by decide +kernel⟩

theorem test_hyp_RegisterWrites : isMmio 0 = false ∧ (isMmio (mmioBase 0 + 8) = true ∧ regAt (mmioSock (mmioBase 0 + 8)) 8 = none) ∧
    (m1.dead 0 = false ∧ ({ m1 with fuses := [(0, 1)] } : State).dead 0 = true) ∧ ((7 : Nat) < 8 ∧ (63 : Nat) < 64 ∧ (1023 : Nat) < 1024 ∧ (2047 : Nat) < 2048) ∧
    (m1.dead (1024 * 7 + 32 * 31 + 31) = false ∧ m1.armedCore 0 = false ∧ (armed { state := 1 }).armedCore 0 = true) := by decide +kernel

/-! Hypotheses: the whole machine. -/

theorem test_hyp_DecodeEncode : (Instr.movi 15 (-1) 15).wf = true ∧ (encodeFields (.movi 15 (-1) 15)).isSome = true ∧
    decodeBytes (encodeBytes (.movi 15 (-1) 15) ++ [7]) = .ok (.movi 15 (-1) 15, [7]) := ⟨rfl, rfl, rfl⟩

/-- Core 0's store holds ADDI g1, g1, 1 at 0 and PC points at it; the last word of the store holds a NOP. -/
def stored : State := (m1.setBytes (storeKey 0 0) (bytesOfWord 0x00022204)).setBytes (storeKey 0 0xFFFC) (bytesOfWord 0x98)

theorem test_hyp_StepRunsDecoded : (stored.power = true ∧ stored.iod.frozen = false ∧ takeInput stored.inputMay stored.inputs = none ∧ stored.evTurn = false ∧
      stored.resumes = false ∧
      stored.issuesAt stored.cur = true ∧ (stored.slot stored.cur).far = []) ∧
    (match stored.fetch stored.cur with | .ins i pc => i == .addi 0 1 1 1 && pc == 0 | _ => false) = true ∧
    ((stored.slot here).rpt = none ∧ (stored.slot here).streamed = false ∧ (stored.slot here).pc.toNat % 4 = 0 ∧ (stored.slot here).stage = .fresh) ∧
    decodeBytes (stored.bytes (storeKey 0 0) 8) = .ok (.addi 0 1 1 1, [0, 0, 0, 0]) :=
  ⟨by decide +kernel, by decide +kernel, by decide +kernel, rfl⟩

theorem test_hyp_GuardSkips : (∃ f, encodeFields (.nop 3) = some (f, 0) ∧ f.q = 3 ∧ f.ls ≠ 2) ∧ (m1.slot here).capturing = none ∧
    earlyTrap (m1.slot here) (.nop 3) = none ∧ (m1.slot here).getQ 3 = false ∧ readsGuard (m1.slot here) (.nop 3) = false :=
  ⟨⟨_, rfl, rfl, by decide⟩, by decide +kernel, by decide +kernel, by decide +kernel, by decide +kernel⟩

theorem test_hyp_MemoryStaysCanonical : stored.memOk ∧ (match step stored with | .next _ => true | _ => false) = true :=
  ⟨by unfold State.memOk; decide +kernel, by decide +kernel⟩

theorem test_hyp_LittleEndian : (0x0000000F : Word).extractLsb' 0 2 = 3 ∧ decode 0x0000000F 0xFFFFFFFC = .ok (.jmp 0 (-4)) := ⟨rfl, rfl⟩

/-- A step runs the fetched instruction: ADDI adds 1 to g1 and PC goes on. -/
theorem test_step : (match step stored with | .next t => (t.slot here).getG 1 == 4 && (t.slot here).pc == 4 | _ => false) = true := by
  decide +kernel

/-- A row of the table placed by `withFetchWord` is the next instruction to run: the first step after reset runs it. -/
theorem test_withFetchWord : (match step (State.reset.withFetchWord 32 0x00000098) with
    | .next t => (t.slot bootSlot).pc == 4 | _ => false) = true := by decide +kernel

end Sys2Proof.Tests
end

section
/-! Byte order (R4): the bytes of a number in memory and the bytes of a 64-bit instruction. -/
namespace Sys2Proof.Machine

/-! The bytes of a number. -/

@[simp] theorem length_leBytes (n v : Nat) : (leBytes n v).length = n := by
  induction n generalizing v with
  | zero => rfl
  | succ n ih => simp [leBytes, ih]

/-- Eight bits further up is one byte further on. -/
theorem div_two_pow_byte_succ (v i : Nat) : v / 2 ^ (8 * (i + 1)) = v / 256 / 2 ^ (8 * i) := by
  rw [Nat.mul_succ, Nat.pow_add, Nat.mul_comm, ← Nat.div_div_eq_div_mul]

theorem getElem_leBytes {n i : Nat} (v : Nat) (h : i < n) :
    (leBytes n v)[i]'(by simpa using h) = BitVec.ofNat 8 (v / 2 ^ (8 * i)) := by
  induction n generalizing v i with
  | zero => exact absurd h (Nat.not_lt_zero i)
  | succ n ih =>
    cases i with
    | zero => simp [leBytes]
    | succ i =>
      rw [div_two_pow_byte_succ]
      exact ih (v / 256) (Nat.lt_of_succ_lt_succ h)

theorem byte_of_ofLe (bs : List Byte) {i : Nat} (h : i < bs.length) : BitVec.ofNat 8 (ofLe bs / 2 ^ (8 * i)) = bs[i] := by
  induction bs generalizing i with
  | nil => exact absurd h (Nat.not_lt_zero i)
  | cons b bs ih =>
    cases i with
    | zero =>
      apply BitVec.eq_of_toNat_eq
      have hb := b.isLt
      simp only [ofLe, BitVec.toNat_ofNat, List.getElem_cons_zero]
      omega
    | succ i =>
      have hrest : (b.toNat + 256 * ofLe bs) / 256 = ofLe bs := by have hb := b.isLt; omega
      rw [div_two_pow_byte_succ, ofLe, hrest]
      exact ih (Nat.lt_of_succ_lt_succ h)

/-! Reading a run of bytes. -/

@[simp] theorem State.length_bytes (s : State) (k n : Nat) : (s.bytes k n).length = n := by
  induction n generalizing k with
  | zero => rfl
  | succ n ih => simp [State.bytes, ih]

theorem State.getElem_bytes (s : State) (k : Nat) {n i : Nat} (h : i < n) :
    (s.bytes k n)[i]'(by simpa using h) = s.byte (k + i) := by
  induction n generalizing k i with
  | zero => exact absurd h (Nat.not_lt_zero i)
  | succ n ih =>
    cases i with
    | zero => rfl
    | succ i => simpa [State.bytes, Nat.add_assoc, Nat.add_comm 1 i] using ih (k + 1) (Nat.lt_of_succ_lt_succ h)

/-- Storing a number puts its bits [8i+7:8i] at the i-th address. -/
theorem State.byte_setBytes_leBytes (s : State) (k v : Nat) {n i : Nat} (h : i < n) :
    (s.setBytes k (leBytes n v)).byte (k + i) = BitVec.ofNat 8 (v / 2 ^ (8 * i)) := by
  rw [s.byte_setBytes_inside k i (leBytes n v) (by simpa using h), getElem_leBytes v h]

/-- Bits [8i+7:8i] of a number read are the byte at the i-th address. -/
theorem State.byte_of_num (s : State) (k : Nat) {n i : Nat} (h : i < n) :
    BitVec.ofNat 8 (s.num k n / 2 ^ (8 * i)) = s.byte (k + i) := by
  rw [State.num, byte_of_ofLe _ (by simpa using h), s.getElem_bytes k h]

/-! The bytes of an instruction word. -/

/-- The bytes of a word as a number are its bytes as an instruction. -/
theorem leBytes_eq_bytesOfWord (w : Word) : leBytes 4 w.toNat = bytesOfWord w := by
  simp [leBytes, bytesOfWord, BitVec.extractLsb', Nat.shiftRight_eq_div_pow, Nat.div_div_eq_div_mul]

theorem wordOfBytes_of_extract (w : Word) :
    wordOfBytes (w.extractLsb' 0 8) (w.extractLsb' 8 8) (w.extractLsb' 16 8) (w.extractLsb' 24 8) = w := by
  have hjoin {a b m n : Nat} (h : a = b + n) := BitVec.extractLsb'_append_extractLsb'_eq_extractLsb' (x := w) (len₂ := m) h
  rw [wordOfBytes, hjoin (by decide : 24 = 16 + 8), hjoin (by decide : 16 = 8 + 8), hjoin (by decide : 8 = 0 + 8)]
  exact BitVec.extractLsb'_eq_self

/-- Two words whose first has length selector 11 decode as one instruction, word0 from the lower address (R4, R38). -/
theorem decodeBytes_of_two_words {w0 w1 : Word} {i : Instr} (hsel : w0.extractLsb' 0 2 = 3) (hi : decode w0 w1 = .ok i)
    (rest : List Byte) : decodeBytes (bytesOfWord w0 ++ bytesOfWord w1 ++ rest) = .ok (i, rest) := by
  have hlong : wordBytes w0 = 8 := by simp [wordBytes, hsel]
  simp [bytesOfWord, decodeBytes, wordOfBytes_of_extract, hlong, hi]

/-! The statement. -/

/-- Settles O60: a store and a read agree on the place of every byte of a number, and a 64-bit instruction is decoded
from word0 at the lower address. -/
theorem littleEndian : Obligations.LittleEndian := by
  refine ⟨fun s k n v i h => s.byte_setBytes_leBytes k v h, fun s k n i h => s.byte_of_num k h, ?_⟩
  intro w0 w1 i hsel hi rest
  rw [leBytes_eq_bytesOfWord, leBytes_eq_bytesOfWord]
  exact decodeBytes_of_two_words hsel hi rest

end Sys2Proof.Machine
end

section
/-! VOTE outside a streamed row (R91): the contribution of the slot is the value of the vote. -/
namespace Sys2Proof.Machine

/-- Outside a streamed row no word goes east and nothing is waited for, whichever the vote's kind (R91). -/
theorem execVote_local {s : State} {q a d : R4} {all : Bool} (h : s.issues (.vote q all a d) q = true)
    (hlocal : s.now.streamed = false) :
    ∃ t, execVote q all a d s = .next t ∧ s.onlySlot t (s.past (.vote q all a d) (s.now.setQ d (s.now.getQ a))) := by
  refine issue_doneQ h ?_
  cases s.cur.place with
  | mesh c => simp only [hlocal, Bool.not_false, if_true]
  | ctl sock n => rfl
  | carousel die => rfl

@[simp] theorem spawnedSlot_spawned (t : Turnstile) (r : SpawnReq) (k : Nat) : (spawnedSlot t r k).spawned = true := by
  simp [spawnedSlot]

/-- SPAWN starts a slot in local mode (R76, R96). -/
@[simp] theorem spawnedSlot_streamed (t : Turnstile) (r : SpawnReq) (k : Nat) : (spawnedSlot t r k).streamed = false := by
  simp [spawnedSlot]

/-- Settles O15: in every place a slot in local mode writes its own QW[qa], and a spawned slot is in local mode. -/
theorem voteLocally : Obligations.VoteLocally := by
  refine ⟨fun s q a d all h hlocal => ?_, fun t r k => ⟨spawnedSlot_spawned t r k, spawnedSlot_streamed t r k⟩⟩
  rw [exec_vote]
  exact execVote_local h hlocal

end Sys2Proof.Machine
end
